-- ==== Sys2Proof/Word.lean ====
section
/-!
DEFINITION. The two widths that cross the part's buses and ports (00_scope 0.4, 0.5).
-/

namespace Sys2Proof

/-- One byte of a management-port frame. -/
abbrev Byte := BitVec 8

/-- The 64-bit value of one word slot; bit 63 is transmitted first. -/
abbrev Word := BitVec 64

end Sys2Proof
end

