-- ==== Sys2Proof/Syntax.lean ====
section
/-!
DEFINITION. The commands of the part: one constructor per row of `spec/opcode_table.json`.

A port command carries its select activity and the bytes that follow the command code in its frame (R160), all of them:
the length and range checks of R162 and R163 are the command's own.
-/

namespace Sys2Proof

/-- A management port (00_scope 0.2). -/
inductive Port where
  | a
  | b
deriving DecidableEq, Repr

/-- A select activity that has ended: the port whose select line it is, and whether the line became active less than
1 ms after RESET_N last returned high, or before it did (R178, log 2). -/
structure Select where
  port : Port
  early : Bool
deriving DecidableEq, Repr

/-- A select activity of a port that begins 1 ms or more after RESET_N has returned high (R178). -/
def Port.frame (p : Port) : Select := { port := p, early := false }

/-- A lane, checker or timer number (00_scope 0.5). -/
abbrev Lane := Fin 4

/-- The level of a TRIG or GATE line. -/
inductive Level where
  | low
  | high
deriving DecidableEq, Repr

/-- The commands and events of the part, in the order of the opcode table. -/
inductive Instr where
  /-- NOP, R161. -/
  | nop (select : Select) (args : List Byte)
  /-- IDENTIFY, R164. -/
  | identify (select : Select) (args : List Byte)
  /-- PORT_RESET, R177. -/
  | portReset (select : Select) (args : List Byte)
  /-- RESERVE, R166. -/
  | reserve (select : Select) (args : List Byte)
  /-- RELEASE, R167. -/
  | release (select : Select) (args : List Byte)
  /-- RESERVATION_READ, R167. -/
  | reservationRead (select : Select) (args : List Byte)
  /-- EVENT_READ, R175. -/
  | eventRead (select : Select) (args : List Byte)
  /-- EVENT_CLEAR, R172. -/
  | eventClear (select : Select) (args : List Byte)
  /-- EVENT_ENABLE, R174. -/
  | eventEnable (select : Select) (args : List Byte)
  /-- HOLDOFF_SET, R173. -/
  | holdoffSet (select : Select) (args : List Byte)
  /-- SEG_SELECT, R15. -/
  | segSelect (select : Select) (args : List Byte)
  /-- SEG_WRITE, R16. -/
  | segWrite (select : Select) (args : List Byte)
  /-- SEG_READ, R17. -/
  | segRead (select : Select) (args : List Byte)
  /-- SEG_CLEAR, R18. -/
  | segClear (select : Select) (args : List Byte)
  /-- WORD_SELECT, R19. -/
  | wordSelect (select : Select) (args : List Byte)
  /-- WORD_WRITE, R20. -/
  | wordWrite (select : Select) (args : List Byte)
  /-- WORD_READ, R21. -/
  | wordRead (select : Select) (args : List Byte)
  /-- PLAN_SET, R30. -/
  | planSet (select : Select) (args : List Byte)
  /-- PLAN_CHECK, R31. -/
  | planCheck (select : Select) (args : List Byte)
  /-- PLAN_READ, R33. -/
  | planRead (select : Select) (args : List Byte)
  /-- LANE_START, R39. -/
  | laneStart (select : Select) (args : List Byte)
  /-- LANE_TRIGGER, R41. -/
  | laneTrigger (select : Select) (args : List Byte)
  /-- LANE_HALT, R55. -/
  | laneHalt (select : Select) (args : List Byte)
  /-- LANE_STATUS, R60. -/
  | laneStatus (select : Select) (args : List Byte)
  /-- INJECT_SET, R66. -/
  | injectSet (select : Select) (args : List Byte)
  /-- INJECT_READ, R69. -/
  | injectRead (select : Select) (args : List Byte)
  /-- INJECT_TOTALS_CLEAR, R69. -/
  | injectTotalsClear (select : Select) (args : List Byte)
  /-- SIG_CLEAR, R73. -/
  | sigClear (select : Select) (args : List Byte)
  /-- SIG_READ, R74. -/
  | sigRead (select : Select) (args : List Byte)
  /-- ROUTE_SET, R78. -/
  | routeSet (select : Select) (args : List Byte)
  /-- CHECK_CONFIG, R80. -/
  | checkConfig (select : Select) (args : List Byte)
  /-- CHECK_START, R82. -/
  | checkStart (select : Select) (args : List Byte)
  /-- CHECK_STOP, R84. -/
  | checkStop (select : Select) (args : List Byte)
  /-- CHECK_STATUS, R99. -/
  | checkStatus (select : Select) (args : List Byte)
  /-- TOTALS_READ, R112. -/
  | totalsRead (select : Select) (args : List Byte)
  /-- TOTALS_CLEAR, R113. -/
  | totalsClear (select : Select) (args : List Byte)
  /-- GATE_CONFIG, R118. -/
  | gateConfig (select : Select) (args : List Byte)
  /-- GATE_ARM, R120. -/
  | gateArm (select : Select) (args : List Byte)
  /-- GATE_TRIGGER, R122. -/
  | gateTrigger (select : Select) (args : List Byte)
  /-- GATE_STOP, R125. -/
  | gateStop (select : Select) (args : List Byte)
  /-- GATE_STATUS, R138. -/
  | gateStatus (select : Select) (args : List Byte)
  /-- RESULT_READ, R155. -/
  | resultRead (select : Select) (args : List Byte)
  /-- RESULT_PEEK, R156. -/
  | resultPeek (select : Select) (args : List Byte)
  /-- RESULT_CLEAR, R157. -/
  | resultClear (select : Select) (args : List Byte)
  /-- UNKNOWN_CODE_FRAME, R162: a frame whose first byte names no command. -/
  | unknownCodeFrame (select : Select) (code : Byte) (args : List Byte)
  /-- EMPTY_FRAME, R160: a frame in which no whole byte was shifted. -/
  | emptyFrame (select : Select)
  /-- DEVICE_RESET, R178: RESET_N goes low, or power-up. -/
  | deviceReset
  /-- TRIG_EDGE, R42: line TRIG n now stands at `level`. -/
  | trigEdge (lane : Lane) (level : Level)
  /-- GATE_EDGE, R119: line GATE n now stands at `level`. -/
  | gateEdge (lane : Lane) (level : Level)
  /-- TRANSMIT_SLOT, R57: the next transmit slot of the lane is to be filled. -/
  | transmitSlot (lane : Lane)
  /-- PAUSE_END, R48. -/
  | pauseEnd (lane : Lane)
  /-- WORD_LIMIT_REACHED, R51. -/
  | wordLimitReached (lane : Lane)
  /-- RECEIVE_WORD, R76: receive word bus `bus` delivers `word`. -/
  | receiveWord (bus : Lane) (word : Word)
  /-- TICK, R127, R173: one period of the 1 ms timebase. -/
  | tick
  /-- SLICE_CLOSE, R131. -/
  | sliceClose (lane : Lane)
  /-- INTERVAL_EXPIRY, R130. -/
  | intervalExpiry (lane : Lane)
  /-- CHAIN_START, R124: the follower timer of `lane` takes its source's close. -/
  | chainStart (lane : Lane)
  /-- HOLDOFF_EXPIRY, R173. -/
  | holdoffExpiry (port : Port)
  /-- RESET_N_RETURNS_HIGH, R178. -/
  | resetNReturnsHigh
deriving DecidableEq, Repr

end Sys2Proof
end

