-- ==== Sys2Proof/Decode.lean ====
section
/-!
DEFINITION. From the bytes of a frame to the command it carries, and back (R160, R179, Table 11-2).

`spec/opcode_table.json` gives no row any bits, so no table word spells a command (log 27). What the spec does encode
is the frame: its first byte is the command code and the rest are the arguments.
-/

namespace Sys2Proof

/-- The command that the frame of a select activity carries (R160, R162 check 1). Total: no byte is a frame that takes nothing, and
a code outside Table 11-2 is an UNKNOWN_CODE_FRAME. -/
def decodeFrame (p : Select) : List Byte → Instr
  | [] => .emptyFrame p
  | code :: args =>
    match code.toNat with
    | 0x01 => .nop p args
    | 0x02 => .identify p args
    | 0x03 => .portReset p args
    | 0x04 => .reserve p args
    | 0x05 => .release p args
    | 0x06 => .reservationRead p args
    | 0x08 => .eventRead p args
    | 0x09 => .eventClear p args
    | 0x0A => .eventEnable p args
    | 0x0B => .holdoffSet p args
    | 0x10 => .segSelect p args
    | 0x11 => .segWrite p args
    | 0x12 => .segRead p args
    | 0x13 => .segClear p args
    | 0x14 => .wordSelect p args
    | 0x15 => .wordWrite p args
    | 0x16 => .wordRead p args
    | 0x20 => .planSet p args
    | 0x21 => .planCheck p args
    | 0x22 => .planRead p args
    | 0x28 => .laneStart p args
    | 0x29 => .laneTrigger p args
    | 0x2A => .laneHalt p args
    | 0x2B => .laneStatus p args
    | 0x30 => .injectSet p args
    | 0x31 => .injectRead p args
    | 0x32 => .injectTotalsClear p args
    | 0x33 => .sigClear p args
    | 0x34 => .sigRead p args
    | 0x38 => .routeSet p args
    | 0x39 => .checkConfig p args
    | 0x3A => .checkStart p args
    | 0x3B => .checkStop p args
    | 0x3C => .checkStatus p args
    | 0x40 => .totalsRead p args
    | 0x41 => .totalsClear p args
    | 0x48 => .gateConfig p args
    | 0x49 => .gateArm p args
    | 0x4A => .gateTrigger p args
    | 0x4B => .gateStop p args
    | 0x4C => .gateStatus p args
    | 0x50 => .resultRead p args
    | 0x51 => .resultPeek p args
    | 0x52 => .resultClear p args
    | _ => .unknownCodeFrame p code args

/-- Whether a code byte names a command (Table 11-2; every other code, 0x00 included, names none). -/
def codeNamesCommand (code : Byte) : Bool :=
  match code.toNat with
  | 0x01 | 0x02 | 0x03 | 0x04 | 0x05 | 0x06 | 0x08 | 0x09 | 0x0A | 0x0B | 0x10 | 0x11 | 0x12 | 0x13 |
    0x14 | 0x15 | 0x16 | 0x20 | 0x21 | 0x22 | 0x28 | 0x29 | 0x2A | 0x2B | 0x30 | 0x31 | 0x32 | 0x33 |
    0x34 | 0x38 | 0x39 | 0x3A | 0x3B | 0x3C | 0x40 | 0x41 | 0x48 | 0x49 | 0x4A | 0x4B | 0x4C | 0x50 |
    0x51 | 0x52 => true
  | _ => false

/-- The frame that carries a command: its select activity and its bytes, the command code first (Table 11-2). The hardware
events of the part are carried by no frame. -/
def frameBytes : Instr → Option (Select × List Byte)
  | .nop p args => some (p, 0x01 :: args)
  | .identify p args => some (p, 0x02 :: args)
  | .portReset p args => some (p, 0x03 :: args)
  | .reserve p args => some (p, 0x04 :: args)
  | .release p args => some (p, 0x05 :: args)
  | .reservationRead p args => some (p, 0x06 :: args)
  | .eventRead p args => some (p, 0x08 :: args)
  | .eventClear p args => some (p, 0x09 :: args)
  | .eventEnable p args => some (p, 0x0A :: args)
  | .holdoffSet p args => some (p, 0x0B :: args)
  | .segSelect p args => some (p, 0x10 :: args)
  | .segWrite p args => some (p, 0x11 :: args)
  | .segRead p args => some (p, 0x12 :: args)
  | .segClear p args => some (p, 0x13 :: args)
  | .wordSelect p args => some (p, 0x14 :: args)
  | .wordWrite p args => some (p, 0x15 :: args)
  | .wordRead p args => some (p, 0x16 :: args)
  | .planSet p args => some (p, 0x20 :: args)
  | .planCheck p args => some (p, 0x21 :: args)
  | .planRead p args => some (p, 0x22 :: args)
  | .laneStart p args => some (p, 0x28 :: args)
  | .laneTrigger p args => some (p, 0x29 :: args)
  | .laneHalt p args => some (p, 0x2A :: args)
  | .laneStatus p args => some (p, 0x2B :: args)
  | .injectSet p args => some (p, 0x30 :: args)
  | .injectRead p args => some (p, 0x31 :: args)
  | .injectTotalsClear p args => some (p, 0x32 :: args)
  | .sigClear p args => some (p, 0x33 :: args)
  | .sigRead p args => some (p, 0x34 :: args)
  | .routeSet p args => some (p, 0x38 :: args)
  | .checkConfig p args => some (p, 0x39 :: args)
  | .checkStart p args => some (p, 0x3A :: args)
  | .checkStop p args => some (p, 0x3B :: args)
  | .checkStatus p args => some (p, 0x3C :: args)
  | .totalsRead p args => some (p, 0x40 :: args)
  | .totalsClear p args => some (p, 0x41 :: args)
  | .gateConfig p args => some (p, 0x48 :: args)
  | .gateArm p args => some (p, 0x49 :: args)
  | .gateTrigger p args => some (p, 0x4A :: args)
  | .gateStop p args => some (p, 0x4B :: args)
  | .gateStatus p args => some (p, 0x4C :: args)
  | .resultRead p args => some (p, 0x50 :: args)
  | .resultPeek p args => some (p, 0x51 :: args)
  | .resultClear p args => some (p, 0x52 :: args)
  | .unknownCodeFrame p code args => some (p, code :: args)
  | .emptyFrame p => some (p, [])
  | .deviceReset => none
  | .trigEdge _ _ => none
  | .gateEdge _ _ => none
  | .transmitSlot _ => none
  | .pauseEnd _ => none
  | .wordLimitReached _ => none
  | .receiveWord _ _ => none
  | .tick => none
  | .sliceClose _ => none
  | .intervalExpiry _ => none
  | .chainStart _ => none
  | .holdoffExpiry _ => none
  | .resetNReturnsHigh => none

/-- The command that a word of `spec/opcode_table.json`'s bits spells. No row of the table gives bits, so none does. -/
def decodeTableWord (_nbits _w : Nat) : Option Instr := none

end Sys2Proof
end

