-- ==== Sys2Proof/Config.lean ====
section
/-!
DEFINITION. What one part is built with, and the free values: the bytes that the spec returns in a reply
without stating their value.
-/

namespace Sys2Proof.Config

/-- The part code that IDENTIFY returns (R164). -/
def partCode : Nat := 4410

/-- The revision that IDENTIFY returns (R164). -/
def revision : Nat := 1

/-- Lanes of the part (R164). -/
def laneCount : Nat := 4

/-- Segment records of the Segment Table (R1, R164). -/
def segmentCount : Nat := 64

/-- Words of the Pattern Word Store (R11, R164). -/
def storeSize : Nat := 4096

/-- Records a result ring holds at most (R150). -/
def ringSize : Nat := 16

/-- Entries a worst-slice list holds at most (R134). -/
def worstSize : Nat := 4

/-- FREE VALUE: the reply byte number `n` of those whose value the spec does not state (the argument fields that a
stored injection setting or gate trigger does not use, R66, R69, R118, R138). It has no body, so nothing can be
proved of it. DESIGN CHOICE, logs 8 and 9. -/
opaque freeByte : Nat → Byte

end Sys2Proof.Config
end

