-- ==== Sys2Proof/Machine/State.lean ====
section
/-!
DEFINITION. Everything the spec gives the part to hold, as plain data, and its values after device reset.
-/

namespace Sys2Proof.Machine

/-! ### Segments and the Pattern Word Store (chapter 1) -/

/-- The six orders of a PRBS segment (Table 1-1, R8). -/
inductive PrbsOrder where
  | k7 | k9 | k11 | k15 | k23 | k31
deriving DecidableEq, Repr

/-- The kind of a segment with the parameters of that kind, as stored (Table 1-1, R2, R3). -/
inductive SegKind where
  | prbs (order : PrbsOrder) (invert : Bool) (seed : BitVec 32)
  | list (start stride rstep : BitVec 12)
  | count (init inc : Word)
  | fill (value : Word)
deriving DecidableEq, Repr

/-- A defined segment record (R1, Table 1-1). `next = none` is END. -/
structure Segment where
  kind : SegKind
  /-- Words in one repetition, 1 to 65536. -/
  words : BitVec 17
  /-- The field `repeat`: extra repetitions. -/
  reps : BitVec 8
  next : Option (Fin 64)
  counted : Bool
  mask : Word
  /-- Bytes compared in the last word of a repetition, 1 to 8. -/
  tail : BitVec 4
deriving DecidableEq, Repr

/-- One index of the Segment Table: its record when defined, and its use set, G n at bit n and C n at bit 4 + n
(R1, R12, R179). -/
structure SegSlot where
  record : Option Segment
  useSet : BitVec 8
deriving DecidableEq, Repr

/-- One listed word of the Pattern Word Store. -/
abbrev StoreCell := Nat × Word

/-- The Pattern Word Store (R11): the words that differ from 0, addresses rising. -/
abbrev Memory := List StoreCell

/-! ### Lane plans (chapter 2) -/

/-- The two plan modes (R23). -/
inductive PlanMode where
  | sequence | freeRun
deriving DecidableEq, Repr

/-- What starts a run beside LANE_TRIGGER (R23, R42). -/
inductive PlanTrigger where
  | soft | trigRise | trigFall | trigBoth
deriving DecidableEq, Repr

/-- The outcome of a plan's last validation, or CHANGED (R23, R29). -/
inductive Verdict where
  | unchecked | valid | undefined | anchorUnreached | anchorKind | anchorMask | notPrbs | changed
deriving DecidableEq, Repr

/-- A lane plan (R23, Table 2-1). Segment s of the reach set is bit s. -/
structure Plan where
  mode : PlanMode
  first : Fin 64
  anchor : Fin 64
  trigger : PlanTrigger
  passCount : BitVec 16
  pause : BitVec 16
  passStep : BitVec 12
  wordLimit : BitVec 32
  idleWord : Word
  valid : Bool
  reach : BitVec 64
  verdict : Verdict
  verdictSeg : Fin 64
deriving DecidableEq, Repr

/-! ### Generators, injection, signatures (chapters 3 and 4) -/

/-- The four generator states (R37). -/
inductive GenState where
  | stopped | armed | running | pausing
deriving DecidableEq, Repr

/-- A walker's position: current segment, repetition, word index, pass, pause words or positions remaining
(R59, R86). -/
structure Pos where
  seg : Fin 64
  r : BitVec 8
  i : BitVec 16
  p : BitVec 32
  pause : BitVec 16
deriving DecidableEq, Repr

/-- A generator (R37, R44, R59). `prbs` is the state of the FREE-RUN recurrence (R53). -/
structure Generator where
  state : GenState
  pendingTrigger : Bool
  pos : Pos
  wordsEmitted : BitVec 48
  passesDone : BitVec 32
  runsCompleted : BitVec 32
  prbs : BitVec 32
deriving DecidableEq, Repr

/-- The injection setting (R61). -/
inductive Injection where
  | off
  | single (bit : BitVec 6)
  | burst (bit : BitVec 6) (len : BitVec 7)
  | periodic (bit : BitVec 6) (period : BitVec 24)
deriving DecidableEq, Repr

/-- An injection unit (R61). -/
structure InjectUnit where
  setting : Injection
  periodCount : BitVec 24
  bits : BitVec 48
  words : BitVec 40
deriving DecidableEq, Repr

/-- A latched pass signature (R72). -/
structure PassSignature where
  value : BitVec 31
  pass : BitVec 32
  run : BitVec 32
deriving DecidableEq, Repr

/-- A transmit signature (R71) and the last pass signature, absent as `none` (R72). -/
structure Signature where
  reg : BitVec 31
  pass : Option PassSignature
deriving DecidableEq, Repr

/-! ### Route table and checkers (chapter 5) -/

/-- Where a checker's words come from (R75). -/
inductive Source where
  | external (bus : Lane)
  | loop (gen : Lane)
deriving DecidableEq, Repr

/-- A route entry (R75); `associate = none` is NONE. -/
structure Route where
  source : Source
  associate : Option Lane
deriving DecidableEq, Repr

/-- What an accumulator does at its maximum (R79, R108, R109). -/
inductive OverflowMode where
  | saturate | wrap
deriving DecidableEq, Repr

/-- A checker's configuration (R79): plan lane, verify count V, loss threshold T, overflow mode. -/
structure CheckConfig where
  planLane : Lane
  verify : BitVec 4
  threshold : BitVec 6
  overflow : OverflowMode
deriving DecidableEq, Repr

/-- The four checker states (R81). -/
inductive CheckState where
  | off | search | verify | locked
deriving DecidableEq, Repr

/-- A checker (R81, R86, R87). `prbs` is the FREE-RUN reference state. -/
structure Checker where
  config : CheckConfig
  state : CheckState
  mode : PlanMode
  progress : BitVec 4
  slip : BitVec 6
  pos : Pos
  prbs : BitVec 32
deriving DecidableEq, Repr

/-! ### Accumulators (chapter 6) -/

/-- A `w`-bit count with its saturated flag and wrap tally (R103, R105). -/
structure Counter (w : Nat) where
  value : BitVec w
  saturated : Bool
  tally : BitVec 8
deriving DecidableEq, Repr

/-- The run totals (R103, Table 6-1). -/
structure RunTotals where
  compared : Counter 56
  errored : Counter 48
  words : Counter 40
  gains : Counter 32
  losses : Counter 32
deriving DecidableEq, Repr

/-- The interval accumulators with the slice counters (R105, Table 6-2). -/
structure IntervalAcc where
  compared : Counter 48
  errored : Counter 40
  words : Counter 32
  gains : BitVec 16
  losses : BitVec 16
  injected : BitVec 32
  firstError : Option (BitVec 48)
  sliceCompared : BitVec 48
  sliceErrored : BitVec 40
deriving DecidableEq, Repr

/-- A checker's accumulators and its two ACCUM_LIMIT latches (R103, R105, R111). -/
structure Accumulators where
  run : RunTotals
  interval : IntervalAcc
  runLatch : Bool
  intervalLatch : Bool
deriving DecidableEq, Repr

/-! ### Interval timers (chapters 7 and 8) -/

/-- What a timer counts (R117). -/
inductive TimerUnit where
  | time | words
deriving DecidableEq, Repr

/-- What follows an expiry (R117, R130). -/
inductive TimerMode where
  | once | repeating
deriving DecidableEq, Repr

/-- What starts an interval and what gates it (R117). -/
inductive GateTrigger where
  | soft | gateRise | gateFall | gateBoth | levelHigh | levelLow
  | chain (source : Lane)
deriving DecidableEq, Repr

/-- A threshold (TM, TX); TM 0 disables it (R145). -/
structure Threshold where
  tm : BitVec 16
  tx : BitVec 8
deriving DecidableEq, Repr

/-- A timer's configuration (R117, Table 7-2). -/
structure TimerConfig where
  unit : TimerUnit
  length : BitVec 24
  slice : BitVec 16
  mode : TimerMode
  trigger : GateTrigger
  alarm : Threshold
  severe : Threshold
deriving DecidableEq, Repr

/-- The three timer states (R116). -/
inductive TimerState where
  | stop | wait | run
deriving DecidableEq, Repr

/-- Why an interval closed (00_scope 0.4; Table 7-1). -/
inductive CloseCause where
  | expiry | retrigger | gateStop | checkerStop
deriving DecidableEq, Repr

/-- An entry of a worst-slice list: slice index and held errored bits (R134). -/
structure WorstEntry where
  index : BitVec 24
  bits : BitVec 32
deriving DecidableEq, Repr

/-- What a timer has counted in the current interval: cleared at every start and close (R116, Table 7-1). -/
structure IntervalProgress where
  elapsed : BitVec 24
  sliceIndex : BitVec 24
  sliceUnits : BitVec 16
  sliceMark : Bool
  slicesClosed : BitVec 24
  clean : BitVec 24
  errored : BitVec 24
  severe : BitVec 24
  unavailable : BitVec 24
  worst : List WorstEntry
deriving DecidableEq, Repr

/-- A source lane's close on its way to a waiting follower (R124; DESIGN CHOICE, log 7): whether it stands, and of each
port whether a command of that port made it, whose whole effect is in place before that port's next frame ends
(R183). -/
structure ChainOffer where
  standing : Bool
  owedA : Bool
  owedB : Bool
deriving DecidableEq, Repr

/-- No close is on its way. -/
def ChainOffer.none : ChainOffer := { standing := false, owedA := false, owedB := false }

/-- An interval timer (R116, R117). `chainOffer` is the model's own (log 7). -/
structure Timer where
  config : TimerConfig
  state : TimerState
  progress : IntervalProgress
  lastCause : Option CloseCause
  lastRecorded : Bool
  chainOffer : ChainOffer
deriving DecidableEq, Repr

/-! ### Result rings (chapters 8 and 9) -/

/-- A coded rate figure with its clamped indicator (R140, R144). -/
structure RateFigure where
  m : BitVec 16
  x : BitVec 8
  clamped : Bool
deriving DecidableEq, Repr

/-- The three wrap tallies of a record (R153). -/
structure WrapTallies where
  compared : BitVec 8
  errored : BitVec 8
  words : BitVec 8
deriving DecidableEq, Repr

/-- An interval record (R153, Table 9-1); the optional parts of R154 are `Option`s. -/
structure IntervalRecord where
  sequence : BitVec 32
  lane : Lane
  cause : CloseCause
  unit : TimerUnit
  elapsed : BitVec 24
  compared : BitVec 48
  errored : BitVec 40
  words : BitVec 32
  alarm : Bool
  figure : RateFigure
  comparedSaturated : Bool
  erroredSaturated : Bool
  wordsSaturated : Bool
  slicesClosed : BitVec 24
  clean : BitVec 24
  erroredSlices : BitVec 24
  severe : BitVec 24
  unavailable : BitVec 24
  gains : BitVec 16
  losses : BitVec 16
  tallies : Option WrapTallies
  firstError : Option (BitVec 48)
  injected : Option (BitVec 32)
  worst : List WorstEntry
deriving DecidableEq, Repr

/-- A result ring, oldest record first (R150). -/
structure Ring where
  records : List IntervalRecord
  nextSeq : BitVec 32
deriving DecidableEq, Repr

/-! ### One lane -/

/-- All that belongs to one lane (00_scope 0.4 "lane"; R165), with its TRIG and GATE lines and the word of the last
slot on its transmit bus. -/
structure LaneState where
  plan : Plan
  gen : Generator
  inject : InjectUnit
  sig : Signature
  route : Route
  checker : Checker
  acc : Accumulators
  timer : Timer
  ring : Ring
  trigLine : Level
  gateLine : Level
  txBus : Word
deriving DecidableEq, Repr

/-! ### Ports (chapter 10) -/

/-- The statuses of a response (Table 10-1); `empty` is EMPTY and `none` is NONE. -/
inductive Status where
  | none | ok | empty | frame | unknown | range | reserved | busy | state
deriving DecidableEq, Repr

/-- A response buffer: status, code of the command answered, reply fields (R161, R179). -/
structure Response where
  status : Status
  code : Byte
  fields : List Byte
deriving DecidableEq, Repr

/-- A set of the 26 event flags, in the bit order of R182. -/
abbrev EventSet := BitVec 26

/-- A hold-off timer (R170). -/
structure Holdoff where
  running : Bool
  remaining : BitVec 8
deriving DecidableEq, Repr

/-- A port's event view (R170). -/
structure EventView where
  pending : EventSet
  enable : EventSet
  length : BitVec 8
  holdoff : Holdoff
deriving DecidableEq, Repr

/-- A port's result cursor and skipped count on one lane (R151). -/
structure ResultCursor where
  next : BitVec 32
  skipped : BitVec 16
deriving DecidableEq, Repr

/-- What one management port holds (R14, R151, R161, R170). `shiftedOut` is what its last frame shifted out (R161,
log 19). -/
structure PortState where
  response : Response
  shiftedOut : List Byte
  segCursor : Fin 65
  wordCursor : Fin 4097
  results : Vector ResultCursor 4
  view : EventView
deriving DecidableEq, Repr

/-- Where a device reset stands (R160, R178): RESET_N low, or high. -/
inductive ResetPhase where
  | held | released
deriving DecidableEq, Repr

/-! ### The part -/

/-- The FE-4410, with the queue of commands that wait for it. -/
structure State where
  segs : Vector SegSlot 64
  store : Memory
  lanes : Vector LaneState 4
  portA : PortState
  portB : PortState
  /-- The Reservation Table (R165): the holder of each resource, `none` for NONE. -/
  holders : Vector (Option Port) 20
  resetPhase : ResetPhase
  /-- The model's own: how many free bytes have been given out (log 30). -/
  freeCount : Nat
  /-- The commands that wait, first in, first out. -/
  pending : List Instr
deriving DecidableEq, Repr

/-! ### Why a step stops -/

/-- Stops in states that the spec rules out. The spec itself gives the part no fault. Each is SAFE: a claim about a
next state says nothing of such a state. -/
inductive Fault where
  /-- Raised by a word's walker (TRANSMIT_SLOT, RECEIVE_WORD) whose segment is undefined, which R35 excludes. Safe:
  log 14. -/
  | undefinedSegment
  /-- Raised by a FREE-RUN walker (TRANSMIT_SLOT, RECEIVE_WORD) whose segment is not PRBS, which R28 and R35 exclude.
  Safe: log 14. -/
  | notPrbs
  /-- Raised by RESULT_READ when the cursor names neither a held record nor next_seq, which R151 excludes. Safe:
  log 15. -/
  | lostRecord
deriving DecidableEq, Repr

/-- Terms for which the part has no step. -/
inductive Refusal where
  /-- Raised by the dispatch alone, for a command without a meaning; no command is without one. Safe. -/
  | notModelled (mnemonic : String)
  /-- Raised by UNKNOWN_CODE_FRAME when its code names a command: the part takes such a frame as that command, so the
  term stands for nothing it can receive. Safe: log 16. -/
  | codeNamesACommand
deriving DecidableEq, Repr

/-! ### Reset values -/

namespace Reset

/-- A cleared count (R104, R107). -/
def counter (w : Nat) : Counter w := { value := 0, saturated := false, tally := 0 }

/-- A position with every field 0 (R38, R85). -/
def pos : Pos := { seg := 0, r := 0, i := 0, p := 0, pause := 0 }

/-- Plan n after device reset (Table 2-1). -/
def plan (n : Lane) : Plan where
  mode := .sequence
  first := ⟨n.val, by omega⟩
  anchor := ⟨n.val, by omega⟩
  trigger := .soft
  passCount := 1
  pause := 0
  passStep := 0
  wordLimit := 0
  idleWord := 0
  valid := false
  reach := 0
  verdict := .unchecked
  verdictSeg := 0

/-- GEN n after device reset (R38). -/
def generator : Generator where
  state := .stopped
  pendingTrigger := false
  pos := pos
  wordsEmitted := 0
  passesDone := 0
  runsCompleted := 0
  prbs := 0

/-- Run totals at zero (R104). -/
def runTotals : RunTotals where
  compared := counter 56
  errored := counter 48
  words := counter 40
  gains := counter 32
  losses := counter 32

/-- Interval accumulators at zero, the offset absent (R107). -/
def intervalAcc : IntervalAcc where
  compared := counter 48
  errored := counter 40
  words := counter 32
  gains := 0
  losses := 0
  injected := 0
  firstError := none
  sliceCompared := 0
  sliceErrored := 0

/-- A timer's interval state cleared (R116). -/
def progress : IntervalProgress where
  elapsed := 0
  sliceIndex := 0
  sliceUnits := 0
  sliceMark := false
  slicesClosed := 0
  clean := 0
  errored := 0
  severe := 0
  unavailable := 0
  worst := []

/-- Timer n after device reset (R116, R117, R145). -/
def timer : Timer where
  config :=
    { unit := .time, length := 1000, slice := 1000, mode := .once, trigger := .soft,
      alarm := { tm := 0, tx := 0 }, severe := { tm := 0, tx := 0 } }
  state := .stop
  progress := progress
  lastCause := none
  lastRecorded := false
  chainOffer := .none

/-- CHK n after device reset (R79, R85). -/
def checker (n : Lane) : Checker where
  config := { planLane := n, verify := 4, threshold := 31, overflow := .saturate }
  state := .off
  mode := .sequence
  progress := 0
  slip := 0
  pos := pos
  prbs := 0

/-- Lane n after device reset; its two lines are wherever the board holds them. -/
def lane (n : Lane) (trig gate : Level) : LaneState where
  plan := plan n
  gen := generator
  inject := { setting := .off, periodCount := 0, bits := 0, words := 0 }
  sig := { reg := 0, pass := none }
  route := { source := .external n, associate := some n }
  checker := checker n
  acc := { run := runTotals, interval := intervalAcc, runLatch := false, intervalLatch := false }
  timer := timer
  ring := { records := [], nextSeq := 0 }
  trigLine := trig
  gateLine := gate
  txBus := 0

/-- A response buffer that has answered nothing (R161). -/
def response : Response := { status := .none, code := 0, fields := [] }

/-- A port after device reset (R178): RESTARTED, flag 25 of R182, is pending and enabled, and H is 20. -/
def port : PortState where
  response := response
  shiftedOut := []
  segCursor := 0
  wordCursor := 0
  results := Vector.replicate 4 { next := 0, skipped := 0 }
  view :=
    { pending := BitVec.ofNat 26 (2 ^ 25), enable := BitVec.ofNat 26 (2 ^ 25), length := 20,
      holdoff := { running := false, remaining := 0 } }

end Reset

/-- The part just out of device reset (R178), RESET_N high and its queue empty. Log 1 says why RESET_N is high, log 3 why
the lines are low. -/
def State.reset : State where
  segs := Vector.replicate 64 { record := none, useSet := 0 }
  store := []
  lanes := Vector.ofFn fun n => Reset.lane n .low .low
  portA := Reset.port
  portB := Reset.port
  holders := Vector.replicate 20 none
  resetPhase := .released
  freeCount := 0
  pending := []

end Sys2Proof.Machine
end

