-- ==== Sys2Proof/Machine/Bytes.lean ====
section
/-!
DEFINITION. Bytes of frames: most significant byte first, a 64-bit word byte 0 first (R179), and the codes of the
enumerated values (Tables 11-1 and 11-3).
-/

namespace Sys2Proof.Machine

/-- The low `k` bytes of a number, most significant first (R179). -/
def be : Nat → Nat → List Byte
  | 0, _ => []
  | k + 1, v => BitVec.ofNat 8 (v / 256 ^ k) :: be k v

/-- The number that bytes spell, most significant first (R179). -/
def ofBe (bs : List Byte) : Nat := bs.foldl (fun acc b => acc * 256 + b.toNat) 0

/-- A bit vector in the whole bytes its width needs (R179). -/
def beOf {w : Nat} (k : Nat) (v : BitVec w) : List Byte := be k v.toNat

/-- The field of `len` bytes at offset `at` of an argument list, as a number. -/
def fieldAt (bs : List Byte) (start len : Nat) : Nat := ofBe ((bs.drop start).take len)

/-- The byte at an offset of an argument list. -/
def byteAt (bs : List Byte) (start : Nat) : Byte := bs.getD start 0

/-- `n` 64-bit words from their bytes, byte 0 of each first (R179). -/
def wordsOfBytes : Nat → List Byte → List Word
  | 0, _ => []
  | n + 1, bs => BitVec.ofNat 64 (ofBe (bs.take 8)) :: wordsOfBytes n (bs.drop 8)

/-- The bytes of 64-bit words, byte 0 of each first (R179). -/
def bytesOfWords (ws : List Word) : List Byte := ws.flatMap fun w => beOf 8 w

/-- A yes/no item (R179, Table 11-3). -/
def yesNo (b : Bool) : Byte := if b then 1 else 0

/-- A yes/no argument; any other code is out of range (R2, Table 11-3). -/
def yesNoOfByte (b : Byte) : Option Bool :=
  if b = 0 then some false else if b = 1 then some true else none

/-- An optional item of `k` bytes: a presence byte, then the item, 0 when absent (R179). -/
def optional {w : Nat} (k : Nat) : Option (BitVec w) → List Byte
  | none => 0 :: be k 0
  | some v => 1 :: beOf k v

/-- Table 11-1. -/
def statusCode : Status → Byte
  | .none => 0x00
  | .ok => 0x01
  | .empty => 0x02
  | .frame => 0x03
  | .unknown => 0x04
  | .range => 0x05
  | .reserved => 0x06
  | .busy => 0x07
  | .state => 0x08

/-- A port, as IDENTIFY returns it (Table 11-3). -/
def portCode : Port → Byte
  | .a => 1
  | .b => 2

/-- A holder byte: 0 for NONE, 1 for A, 2 for B (R179). -/
def holderCode : Option Port → Byte
  | none => 0
  | some p => portCode p

/-- A lane, checker or generator number in one byte. -/
def laneCode (n : Lane) : Byte := BitVec.ofNat 8 n.val

/-- A segment index in one byte. -/
def segIndexCode (s : Fin 64) : Byte := BitVec.ofNat 8 s.val

def planModeCode : PlanMode → Byte
  | .sequence => 0
  | .freeRun => 1

def planTriggerCode : PlanTrigger → Byte
  | .soft => 0
  | .trigRise => 1
  | .trigFall => 2
  | .trigBoth => 3

def verdictCode : Verdict → Byte
  | .unchecked => 0
  | .valid => 1
  | .undefined => 2
  | .anchorUnreached => 3
  | .anchorKind => 4
  | .anchorMask => 5
  | .notPrbs => 6
  | .changed => 7

def genStateCode : GenState → Byte
  | .stopped => 0
  | .armed => 1
  | .running => 2
  | .pausing => 3

def checkStateCode : CheckState → Byte
  | .off => 0
  | .search => 1
  | .verify => 2
  | .locked => 3

def overflowCode : OverflowMode → Byte
  | .saturate => 0
  | .wrap => 1

def timerUnitCode : TimerUnit → Byte
  | .time => 0
  | .words => 1

def timerModeCode : TimerMode → Byte
  | .once => 0
  | .repeating => 1

def gateTriggerCode : GateTrigger → Byte
  | .soft => 0
  | .gateRise => 1
  | .gateFall => 2
  | .gateBoth => 3
  | .levelHigh => 4
  | .levelLow => 5
  | .chain _ => 6

def timerStateCode : TimerState → Byte
  | .stop => 0
  | .wait => 1
  | .run => 2

def closeCauseCode : Option CloseCause → Byte
  | none => 0
  | some .expiry => 1
  | some .retrigger => 2
  | some .gateStop => 3
  | some .checkerStop => 4

/-- The bytes of a response: status, command code, reply fields (R161, R179). -/
def responseBytes (r : Response) : List Byte := statusCode r.status :: r.code :: r.fields

/-- What a frame of `len` bytes shifts out of a response buffer: its bytes from the first, then zeros (R161). -/
def shiftOut (r : Response) (len : Nat) : List Byte :=
  (responseBytes r ++ List.replicate len 0).take len

end Sys2Proof.Machine
end

