-- ==== Sys2Proof/Machine/Store.lean ====
section
/-!
DEFINITION. The Pattern Word Store (R11): 4096 words of 64 bits, kept as the list of those that differ from 0,
addresses rising.
-/

namespace Sys2Proof.Machine

/-- What an address that the list does not name reads as: the word every address holds after device reset (R11). -/
def unlistedWord : Word := 0

/-- The word at an address of the store. -/
def storeRead : Memory → Nat → Word
  | [], _ => unlistedWord
  | (b, w) :: rest, a => if a = b then w else storeRead rest a

/-- Puts a word at an address. Writing the word that an unlisted address reads as takes the address off the list, so
that equal stores are equal lists. -/
def storeWrite : Memory → Nat → Word → Memory
  | [], a, w => if w = unlistedWord then [] else [(a, w)]
  | (b, v) :: rest, a, w =>
    if a < b then (if w = unlistedWord then (b, v) :: rest else (a, w) :: (b, v) :: rest)
    else if a = b then (if w = unlistedWord then rest else (a, w) :: rest)
    else (b, v) :: storeWrite rest a w

/-- Puts words at consecutive addresses from `a` (R20). -/
def storeWriteMany : Memory → Nat → List Word → Memory
  | m, _, [] => m
  | m, a, w :: ws => storeWriteMany (storeWrite m a w) (a + 1) ws

/-- The `n` words from address `a`, in address order (R21). -/
def storeReadMany (m : Memory) (a n : Nat) : List Word := (List.range n).map fun k => storeRead m (a + k)

/-- The canonical form: addresses strictly rising and within the store, no word listed that an unlisted address reads
as. -/
abbrev Memory.wf (m : Memory) : Prop :=
  m.Pairwise (fun c d => c.1 < d.1) ∧ ∀ c ∈ m, c.1 < Config.storeSize ∧ c.2 ≠ unlistedWord

end Sys2Proof.Machine
end

