-- ==== Sys2Proof/Machine/Pattern.lean ====
section
/-!
DEFINITION. How a pattern word is formed at a position, and which of its bits are compared (R4 to R10).
-/

namespace Sys2Proof.Machine

/-- The order k of a PRBS segment (Table 1-1). -/
def PrbsOrder.k : PrbsOrder → Nat
  | .k7 => 7
  | .k9 => 9
  | .k11 => 11
  | .k15 => 15
  | .k23 => 23
  | .k31 => 31

/-- The second tap a of the recurrence of order k (R8). -/
def PrbsOrder.a : PrbsOrder → Nat
  | .k7 => 6
  | .k9 => 5
  | .k11 => 9
  | .k15 => 14
  | .k23 => 18
  | .k31 => 28

/-- The low k bits of a 32-bit value. -/
def lowBits (k : Nat) (v : BitVec 32) : BitVec 32 := v &&& BitVec.ofNat 32 (2 ^ k - 1)

/-- The next sequence bit of a recurrence state, whose bit j is the bit formed j + 1 places earlier (R8). -/
def prbsBit (o : PrbsOrder) (st : BitVec 32) : Bool := st.getLsbD (o.k - 1) ^^ st.getLsbD (o.a - 1)

/-- The state after a sequence bit has been formed. -/
def prbsShift (o : PrbsOrder) (st : BitVec 32) (b : Bool) : BitVec 32 :=
  lowBits o.k ((st <<< 1) ||| BitVec.ofNat 32 b.toNat)

/-- The next `n` sequence bits, shifted into `acc` in order, first bit highest (R9), with the state they leave. -/
def prbsTake (o : PrbsOrder) : Nat → BitVec 32 → Word → BitVec 32 × Word
  | 0, st, acc => (st, acc)
  | n + 1, st, acc =>
    let b := prbsBit o st
    prbsTake o n (prbsShift o st b) ((acc <<< 1) ||| BitVec.ofNat 64 b.toNat)

/-- The state after one whole word of the sequence. -/
def prbsAfterWord (o : PrbsOrder) (st : BitVec 32) : BitVec 32 := (prbsTake o 64 st 0).1

/-- The next word of the sequence, before inversion. -/
def prbsRawWord (o : PrbsOrder) (st : BitVec 32) : Word := (prbsTake o 64 st 0).2

/-- The state before the word at visit word number `w`, from the stored seed (R8). -/
def prbsStateAt (o : PrbsOrder) (seed : BitVec 32) : Nat → BitVec 32
  | 0 => seed
  | w + 1 => prbsAfterWord o (prbsStateAt o seed w)

/-- A word with every bit complemented when `invert` is set (R9). -/
def inverted (invert : Bool) (w : Word) : Word := if invert then ~~~w else w

/-- The passoffset of pass p under a pass step (R4). The 32-bit p wraps, which leaves the remainder mod 4096 as it is
(R48). -/
def passOffset (passStep : BitVec 12) (p : BitVec 32) : Nat := ((p - 1).toNat * passStep.toNat) % 4096

/-- The visit word number of a position (R4). -/
def visitWord (words : Nat) (r : BitVec 8) (i : BitVec 16) : Nat := r.toNat * words + i.toNat

/-- The Word Store address of a LIST word (R7). -/
def listAddress (start stride rstep : BitVec 12) (offset r i : Nat) : Nat :=
  (start.toNat + offset + r * rstep.toNat + i * stride.toNat) % 4096

/-- The word a segment forms at a position (R5 to R9). -/
def formWord (m : Memory) (sg : Segment) (passStep : BitVec 12) (pos : Pos) : Word :=
  match sg.kind with
  | .fill v => v
  | .count init inc => init + BitVec.ofNat 64 (visitWord sg.words.toNat pos.r pos.i) * inc
  | .list start stride rstep =>
    storeRead m (listAddress start stride rstep (passOffset passStep pos.p) pos.r.toNat pos.i.toNat)
  | .prbs o invert seed =>
    inverted invert (prbsRawWord o (prbsStateAt o seed (visitWord sg.words.toNat pos.r pos.i)))

/-- Bytes 0 to tail − 1 of a word (R10). -/
def tailMask (tail : BitVec 4) : Word := BitVec.allOnes 64 <<< (64 - 8 * tail.toNat)

/-- The bits compared in a counted word at word index i (R10). -/
def effectiveMask (sg : Segment) (i : BitVec 16) : Word :=
  if i.toNat + 1 = sg.words.toNat then sg.mask &&& tailMask sg.tail else sg.mask

/-- The mask under which received words are tested against the anchor word (R27, R89). -/
def matchMask (sg : Segment) : Word := effectiveMask sg 0

/-- The number of ones in a word. -/
def ones (w : Word) : Nat := (List.range 64).countP fun i => w.getLsbD i

/-- The errored bits of a compared word (R101). -/
def erroredBits (received reference mask : Word) : Nat := ones ((received ^^^ reference) &&& mask)

/-- Where a walker stands after a word: at another word of the pass, or past the pass's last word. -/
inductive Advance where
  | onward (pos : Pos)
  | passEnd
deriving DecidableEq, Repr

/-- One step of a walk (R46): the next word, the next repetition, a fresh visit to the next segment, or the pass end. -/
def advance (sg : Segment) (pos : Pos) : Advance :=
  if pos.i.toNat + 1 < sg.words.toNat then .onward { pos with i := pos.i + 1 }
  else if pos.r.toNat < sg.reps.toNat then .onward { pos with r := pos.r + 1, i := 0 }
  else
    match sg.next with
    | some t => .onward { pos with seg := t, r := 0, i := 0 }
    | none => .passEnd

/-- The start of a pass: the first word of a fresh visit to segment first (R24, R43). -/
def passStart (first : Fin 64) (p : BitVec 32) (pause : BitVec 16) : Pos :=
  { seg := first, r := 0, i := 0, p := p, pause := pause }

/-- The self-synchronisation test of R92: the reference state that a received word leaves, if it passes. -/
def selfSync (o : PrbsOrder) (invert : Bool) (received : Word) : Option (BitVec 32) :=
  let c := inverted invert received
  let loaded := (c >>> (64 - o.k)).setWidth 32
  if loaded = 0 then none
  else
    let predicted := prbsTake o (64 - o.k) loaded 0
    if predicted.2 = c &&& BitVec.ofNat 64 (2 ^ (64 - o.k) - 1) then some (lowBits o.k (c.setWidth 32)) else none

end Sys2Proof.Machine
end

