-- ==== Sys2Proof/Machine/Ops.lean ====
section
/-!
DEFINITION. The named operations every command is made of: reading and replacing one lane, port, segment or holder, the
response to a frame, reservations, use sets and plans (R12, R32, R34, R160 to R163, R165, R168).
-/

namespace Sys2Proof.Machine

/-! ### Lanes, ports, segments, holders -/

/-- The other management port. -/
def otherPort : Port → Port
  | .a => .b
  | .b => .a

/-- What lane n holds. -/
def State.lane (s : State) (n : Lane) : LaneState := s.lanes[n]

/-- Lane n replaced. -/
def State.setLane (s : State) (n : Lane) (l : LaneState) : State := { s with lanes := s.lanes.set n l }

/-- Lane n changed. -/
def State.modLane (s : State) (n : Lane) (f : LaneState → LaneState) : State := s.setLane n (f (s.lane n))

/-- What a port holds. -/
def State.port (s : State) : Port → PortState
  | .a => s.portA
  | .b => s.portB

/-- A port replaced. -/
def State.setPort (s : State) (p : Port) (v : PortState) : State :=
  match p with
  | .a => { s with portA := v }
  | .b => { s with portB := v }

/-- A port changed. -/
def State.modPort (s : State) (p : Port) (f : PortState → PortState) : State := s.setPort p (f (s.port p))

/-- Both ports changed alike. -/
def State.modPorts (s : State) (f : PortState → PortState) : State :=
  { s with portA := f s.portA, portB := f s.portB }

/-- Index i of the Segment Table. -/
def State.seg (s : State) (i : Fin 64) : SegSlot := s.segs[i]

/-- The record of segment i, if it is defined. -/
def State.record (s : State) (i : Fin 64) : Option Segment := (s.seg i).record

/-- Index i of the Segment Table replaced. -/
def State.setSeg (s : State) (i : Fin 64) (v : SegSlot) : State := { s with segs := s.segs.set i v }

/-- The holder of a resource (R165). -/
def State.holder (s : State) (r : Fin 20) : Option Port := s.holders[r]

/-- The holder of a resource replaced. -/
def State.setHolder (s : State) (r : Fin 20) (h : Option Port) : State := { s with holders := s.holders.set r h }

/-- Everything at the values of a device reset but the waiting commands, the lines (which the board drives) and the
model's own counter (R178). -/
def deviceResetState (s : State) (phase : ResetPhase) : State :=
  { State.reset with
    lanes := Vector.ofFn fun n => Reset.lane n (s.lane n).trigLine (s.lane n).gateLine
    resetPhase := phase
    freeCount := s.freeCount
    pending := s.pending }

/-! ### Free values -/

/-- The next `k` free bytes: reply bytes whose value the spec does not state (logs 8 and 9). -/
def freeBytes (s : State) (k : Nat) : List Byte := (List.range k).map fun j => Config.freeByte (s.freeCount + j)

/-- The state after `k` free bytes have been given out. -/
def State.useFree (s : State) (k : Nat) : State := { s with freeCount := s.freeCount + k }

/-! ### Reservations (R165, R168) -/

/-- The resource that lane n is (R165, R182). -/
def laneResource (n : Lane) : Fin 20 := ⟨n.val, by omega⟩

/-- The segment block of segment i (R165, R182). -/
def segResource (i : Fin 64) : Fin 20 := ⟨4 + i.val / 8, by omega⟩

/-- The word block of a store address (R165, R182). -/
def wordResource (a : Fin 4096) : Fin 20 := ⟨12 + a.val / 512, by omega⟩

/-- Whether the port other than `p` holds a resource (R162 check 4, R168). -/
def heldByOther (s : State) (p : Port) (r : Fin 20) : Bool := s.holder r == some (otherPort p)

/-! ### The parts of a frame -/

/-- The state with a port's response buffer replaced as a whole (R161). -/
def State.respond (s : State) (p : Port) (r : Response) : State := s.modPort p fun v => { v with response := r }

/-- The state after a frame of `len` bytes has shifted the response buffer out (R161). -/
def State.shifted (s : State) (p : Port) (len : Nat) : State :=
  s.modPort p fun v => { v with shiftedOut := shiftOut v.response len }

/-- The flag of FRAME_FAULT in an event set (R182). -/
def frameFaultFlag : EventSet := BitVec.ofNat 26 (2 ^ 24)

/-- FRAME_FAULT set in the faulting port's own pending set (R163, R170). -/
def State.raiseFrameFault (s : State) (p : Port) : State :=
  s.modPort p fun v => { v with view := { v.view with pending := v.view.pending ||| frameFaultFlag } }

/-- A lane number argument (R162 check 3). -/
def laneOfByte (b : Byte) : Option Lane := if h : b.toNat < 4 then some ⟨b.toNat, h⟩ else none

/-! ### Use sets (R12) -/

/-- A member of use sets. -/
inductive Walker where
  | generator (n : Lane)
  | checker (n : Lane)
deriving DecidableEq, Repr

/-- A walker's bit in a use set: G n at bit n, C n at bit 4 + n (R179). -/
def Walker.bit : Walker → Nat
  | .generator n => n.val
  | .checker n => 4 + n.val

/-- A use set with a member added. -/
def addUser (u : BitVec 8) (w : Walker) : BitVec 8 := u ||| BitVec.ofNat 8 (2 ^ w.bit)

/-- A use set with a member removed. -/
def removeUser (u : BitVec 8) (w : Walker) : BitVec 8 := u &&& ~~~(BitVec.ofNat 8 (2 ^ w.bit))

/-- The Segment Table with a walker's mark on every segment of a reach set (R12). -/
def State.mark (s : State) (reach : BitVec 64) (w : Walker) : State :=
  { s with segs := Vector.ofFn fun i =>
      if reach.getLsbD i.val then { s.seg i with useSet := addUser (s.seg i).useSet w } else s.seg i }

/-- The Segment Table with a walker's mark taken off every segment (R12). -/
def State.unmark (s : State) (w : Walker) : State :=
  { s with segs := Vector.ofFn fun i => { s.seg i with useSet := removeUser (s.seg i).useSet w } }

/-! ### Plans and segment changes -/

/-- Every plan whose reach set holds segment i loses VALID, with verdict CHANGED (R34). -/
def invalidate (s : State) (i : Fin 64) : State :=
  { s with lanes := s.lanes.map fun l =>
      if l.plan.reach.getLsbD i.val then
        { l with plan := { l.plan with valid := false, verdict := .changed, verdictSeg := i } }
      else l }

/-- Whether plan n is in use (R32). -/
def planInUse (s : State) (n : Lane) : Bool :=
  (s.lane n).gen.state != .stopped ||
    (List.finRange 4).any fun c =>
      (s.lane c).checker.config.planLane == n && (s.lane c).checker.state != .off

/-- The plan that checker n follows (R79). -/
def checkerPlan (s : State) (n : Lane) : Plan := (s.lane (s.lane n).checker.config.planLane).plan

end Sys2Proof.Machine
end

