-- ==== Sys2Proof/Machine/Flags.lean ====
section
/-!
DEFINITION. Events, the ports' views of them, the alert lines and the hold-off timers (R170 to R173, R182).
-/

namespace Sys2Proof.Machine

/-- The events of Table 10-3; FRAME_FAULT, which belongs to one view, is `State.raiseFrameFault`. -/
inductive Event where
  | lockGained (n : Lane)
  | lockLost (n : Lane)
  | runDone (n : Lane)
  | intervalClosed (n : Lane)
  | threshold (n : Lane)
  | accumLimit (n : Lane)
  | restarted
deriving DecidableEq, Repr

/-- The bit of an event in an event set (R182). -/
def Event.bit : Event → Nat
  | .lockGained n => 6 * n.val
  | .lockLost n => 6 * n.val + 1
  | .runDone n => 6 * n.val + 2
  | .intervalClosed n => 6 * n.val + 3
  | .threshold n => 6 * n.val + 4
  | .accumLimit n => 6 * n.val + 5
  | .restarted => 25

/-- An event's flag as an event set. -/
def Event.flag (e : Event) : EventSet := BitVec.ofNat 26 (2 ^ e.bit)

/-- An event raised: its flag set in the pending sets of both views (R170). -/
def State.raise (s : State) (e : Event) : State :=
  s.modPorts fun v => { v with view := { v.view with pending := v.view.pending ||| e.flag } }

/-- Whether a view asserts its port's alert line (R171). -/
def alertAsserted (v : EventView) : Bool := (v.pending &&& v.enable) != 0 && !v.holdoff.running

/-- The level of ALERT_A or ALERT_B (R171). -/
def State.alertLine (s : State) (p : Port) : Bool := alertAsserted (s.port p).view

/-- A hold-off timer that is not running (R170). -/
def stoppedHoldoff : Holdoff := { running := false, remaining := 0 }

/-- The hold-off timer started or restarted by EVENT_CLEAR with length H; H 0 stops it (R172). -/
def startHoldoff (h : BitVec 8) : Holdoff := if h = 0 then stoppedHoldoff else { running := true, remaining := h }

/-- The expiry of a hold-off timer whose ticks are used up (R173). -/
def holdoffExpiryIfDue (h : Holdoff) : Holdoff :=
  if h.running && h.remaining == 0 then stoppedHoldoff else h

/-- A tick at a hold-off timer (R173): a running timer counts down, and expires when it reaches 0. -/
def tickHoldoff (h : Holdoff) : Holdoff :=
  if h.running then holdoffExpiryIfDue { h with remaining := BitVec.ofNat 8 (h.remaining.toNat - 1) } else h

/-- A port's view with its hold-off timer replaced. -/
def PortState.setHoldoff (v : PortState) (h : Holdoff) : PortState := { v with view := { v.view with holdoff := h } }

/-- The event set that a frame carries in 4 bytes; bits 26 to 31 stand for no event and are out of range (R182). -/
def eventSetOfBytes (bs : List Byte) : Option EventSet :=
  if ofBe bs < 2 ^ 26 then some (BitVec.ofNat 26 (ofBe bs)) else none

/-- An event set in a reply: 4 bytes, bits 26 to 31 zero (R182). -/
def eventSetBytes (e : EventSet) : List Byte := beOf 4 e

end Sys2Proof.Machine
end

