-- ==== Sys2Proof/Machine/Rate.lean ====
section
/-!
DEFINITION. Error-rate arithmetic (R140 to R148).
-/

namespace Sys2Proof.Machine

/-- The exponent of a VALUE figure: the least X with E × 2^(X+1) ≥ N (R141). X is below 64 for every pair of counts
that the part holds (R143). -/
def figureExponent (e n : Nat) : Nat := ((List.range 64).find? fun x => n ≤ e * 2 ^ (x + 1)).getD 0

/-- The mantissa of a VALUE figure (R141). -/
def figureMantissa (e n x : Nat) : Nat := e * 2 ^ (16 + x) / n

/-- The rate figure of E errored bits and N compared bits (R140 to R142). -/
def rateFigure (e n : Nat) : RateFigure :=
  if n = 0 then { m := 0, x := 63, clamped := false }
  else if e = 0 then { m := 0, x := 0, clamped := false }
  else if n ≤ e then { m := 65535, x := 0, clamped := true }
  else
    { m := BitVec.ofNat 16 (figureMantissa e n (figureExponent e n))
      x := BitVec.ofNat 8 (figureExponent e n)
      clamped := false }

/-- Whether a rate exceeds a threshold, tested exactly (R146). -/
def exceeds (th : Threshold) (e n : Nat) : Bool :=
  th.tm != 0 && n != 0 && decide (th.tm.toNat * n < e * 2 ^ (16 + th.tx.toNat))

/-- A threshold as GATE_CONFIG stores it (R118). -/
def storeThreshold (tm : BitVec 16) (tx : Byte) : Threshold where
  tm := if tm = 0 then 0 else if tm.toNat < 32768 then 32768 else tm
  tx := if 55 < tx.toNat then 55 else tx

end Sys2Proof.Machine
end

