-- ==== Sys2Proof/Machine/Accumulate.lean ====
section
/-!
DEFINITION. Counts and their overflow, the run totals and the interval accumulators (R103 to R111).
-/

namespace Sys2Proof.Machine

/-- A value that stays at its maximum rather than pass it (R110). -/
def saturatingAdd {w : Nat} (v : BitVec w) (k : Nat) : BitVec w := BitVec.ofNat w (min (v.toNat + k) (2 ^ w - 1))

/-- An addition to a count under an overflow mode, with whether it passed the maximum (R108, R109). -/
def Counter.add {w : Nat} (mode : OverflowMode) (c : Counter w) (k : Nat) : Counter w × Bool :=
  if c.value.toNat + k < 2 ^ w then ({ c with value := BitVec.ofNat w (c.value.toNat + k) }, false)
  else
    match mode with
    | .saturate => ({ c with value := BitVec.allOnes w, saturated := true }, true)
    | .wrap =>
      ({ c with value := BitVec.ofNat w (c.value.toNat + k - 2 ^ w), tally := saturatingAdd c.tally 1 }, true)

/-- 1 for an errored word, 0 for a clean one (R101). -/
def erroredWord (e : Nat) : Nat := if 0 < e then 1 else 0

/-- The run totals after a compared word with c compared and e errored bits, and whether any overflowed (R103). -/
def RunTotals.addWord (mode : OverflowMode) (t : RunTotals) (c e : Nat) : RunTotals × Bool :=
  let a := t.compared.add mode c
  let b := t.errored.add mode e
  let d := t.words.add mode (erroredWord e)
  ({ t with compared := a.1, errored := b.1, words := d.1 }, a.2 || b.2 || d.2)

/-- The run totals after a lock gain (R98, R103). -/
def RunTotals.addGain (mode : OverflowMode) (t : RunTotals) : RunTotals × Bool :=
  let a := t.gains.add mode 1
  ({ t with gains := a.1 }, a.2)

/-- The run totals after a lock loss (R97, R103). -/
def RunTotals.addLoss (mode : OverflowMode) (t : RunTotals) : RunTotals × Bool :=
  let a := t.losses.add mode 1
  ({ t with losses := a.1 }, a.2)

/-- Whether the first-error offset may still be fixed: no errored word has been accumulated, and the compared bits have
neither wrapped nor reached their maximum (R106; DEDUCED from the counts and tallies, log 22). -/
def offsetOpen (a : IntervalAcc) : Bool :=
  a.words.value == 0 && a.words.tally == 0 && a.compared.tally == 0 && a.compared.value != BitVec.allOnes 48

/-- The first-error offset after a word with e errored bits; `wrapped` says that the compared bits wrapped at it
(R106). -/
def nextOffset (a : IntervalAcc) (e : Nat) (wrapped : Bool) : Option (BitVec 48) :=
  if wrapped then none
  else
    match a.firstError with
    | some v => some v
    | none => if 0 < e && offsetOpen a then some a.compared.value else none

/-- The interval accumulators and slice counters after an accumulated word, and whether a count of theirs overflowed
(R105, R106, R110). -/
def IntervalAcc.addWord (mode : OverflowMode) (a : IntervalAcc) (c e : Nat) : IntervalAcc × Bool :=
  let x := a.compared.add mode c
  let y := a.errored.add mode e
  let z := a.words.add mode (erroredWord e)
  ({ a with
      compared := x.1, errored := y.1, words := z.1,
      firstError := nextOffset a e (x.2 && mode == .wrap),
      sliceCompared := saturatingAdd a.sliceCompared c,
      sliceErrored := saturatingAdd a.sliceErrored e },
    x.2 || y.2 || z.2)

/-- The run totals, flags and tallies zeroed, the run latch cleared (R104, R111). -/
def zeroRun (a : Accumulators) : Accumulators := { a with run := Reset.runTotals, runLatch := false }

/-- The interval accumulators and slice counters zeroed, the interval latch cleared (R107, R111). -/
def zeroInterval (a : Accumulators) : Accumulators :=
  { a with interval := Reset.intervalAcc, intervalLatch := false }

/-- A lane with changed accumulators. -/
def LaneState.modAcc (l : LaneState) (f : Accumulators → Accumulators) : LaneState := { l with acc := f l.acc }

/-- New run totals for lane n; an overflow under a clear run latch raises ACCUM_LIMIT and sets the latch (R111). -/
def setRun (s : State) (n : Lane) (t : RunTotals × Bool) : State :=
  let latch := (s.lane n).acc.runLatch
  let u := s.modLane n fun l => l.modAcc fun a => { a with run := t.1, runLatch := latch || t.2 }
  if t.2 && !latch then u.raise (.accumLimit n) else u

/-- New interval accumulators for lane n; an overflow under a clear interval latch raises ACCUM_LIMIT and sets the
latch (R111). -/
def setInterval (s : State) (n : Lane) (t : IntervalAcc × Bool) : State :=
  let latch := (s.lane n).acc.intervalLatch
  let u := s.modLane n fun l => l.modAcc fun a => { a with interval := t.1, intervalLatch := latch || t.2 }
  if t.2 && !latch then u.raise (.accumLimit n) else u

end Sys2Proof.Machine
end

