-- ==== Sys2Proof/Machine/Interval.lean ====
section
/-!
DEFINITION. Interval timers: gates, starts, units, slices, closes and the push of a record
(R119 to R137, R150 to R154).
-/

namespace Sys2Proof.Machine

/-! ### Gates -/

/-- Whether a lane's gate level is active (R119). -/
def gateActive (l : LaneState) : Bool :=
  match l.timer.config.trigger with
  | .levelHigh => l.gateLine == .high
  | .levelLow => l.gateLine == .low
  | _ => true

/-- Whether a trigger is one of the two LEVEL triggers. -/
def GateTrigger.isLevel : GateTrigger → Bool
  | .levelHigh => true
  | .levelLow => true
  | _ => false

/-- Whether an edge to `level` matches a gate trigger (R119). -/
def GateTrigger.matchesEdge (t : GateTrigger) (level : Level) : Bool :=
  match t with
  | .gateRise => level == .high
  | .gateFall => level == .low
  | .gateBoth => true
  | _ => false

/-- Whether the interval accumulators of a lane count: timer in RUN, gate level active (R70, R102, R105, R112). -/
def counting (l : LaneState) : Bool := l.timer.state == .run && gateActive l

/-- The UNAVAILABLE condition of unit TIME (R132). -/
def unavailableNow (l : LaneState) : Bool :=
  l.timer.config.unit == .time && counting l && l.checker.state != .locked

/-- A lane with changed interval progress. -/
def LaneState.modProgress (l : LaneState) (f : IntervalProgress → IntervalProgress) : LaneState :=
  { l with timer := { l.timer with progress := f l.timer.progress } }

/-- A lane with its timer put in a state; the chain offer concerns WAIT alone and is dropped (R124, log 7). -/
def LaneState.setTimer (l : LaneState) (st : TimerState) : LaneState :=
  { l with timer := { l.timer with state := st, chainOffer := .none } }

/-- The slice mark set when the UNAVAILABLE condition of unit TIME holds (R132). -/
def refreshMark (l : LaneState) : LaneState :=
  l.modProgress fun q => { q with sliceMark := q.sliceMark || unavailableNow l }

/-! ### Starts -/

/-- An interval started (R121): accumulators zeroed, timer cleared and in RUN, the slice mark as the UNAVAILABLE
condition then stands. -/
def startInterval (l : LaneState) : LaneState :=
  refreshMark (((l.modAcc zeroInterval).modProgress fun _ => Reset.progress).setTimer .run)

/-! ### Slices -/

/-- The classes of a closed slice (R133). -/
inductive SliceClass where
  | clean | errored | severe | unavailable
deriving DecidableEq, Repr

/-- The class of a lane's open slice as it closes (R133). -/
def sliceClass (l : LaneState) : SliceClass :=
  if l.timer.progress.sliceMark then .unavailable
  else if exceeds l.timer.config.severe l.acc.interval.sliceErrored.toNat l.acc.interval.sliceCompared.toNat then
    .severe
  else if 0 < l.acc.interval.sliceErrored.toNat then .errored
  else .clean

/-- An entry put into a list kept in descending order, after its equals (R134). -/
def insertWorst (e : WorstEntry) : List WorstEntry → List WorstEntry
  | [] => [e]
  | x :: xs => if e.bits.toNat ≤ x.bits.toNat then x :: insertWorst e xs else e :: x :: xs

/-- A slice offered to a worst-slice list (R134). -/
def offerWorst (e : WorstEntry) (ws : List WorstEntry) : List WorstEntry :=
  if ws.length < Config.worstSize then insertWorst e ws
  else
    match ws.getLast? with
    | some last => if last.bits.toNat < e.bits.toNat then insertWorst e ws.dropLast else ws
    | none => ws

/-- The errored bits of a slice as the worst-slice list holds them: 32 bits, saturating (R134). -/
def heldBits (v : BitVec 40) : BitVec 32 := BitVec.ofNat 32 (min v.toNat (2 ^ 32 - 1))

/-- The count of a class increased (R133). -/
def countClass (c : SliceClass) (q : IntervalProgress) : IntervalProgress :=
  match c with
  | .clean => { q with clean := q.clean + 1 }
  | .errored => { q with errored := q.errored + 1 }
  | .severe => { q with severe := q.severe + 1 }
  | .unavailable => { q with unavailable := q.unavailable + 1 }

/-- Whether slices of a class are offered to the worst-slice list (R134). -/
def SliceClass.offered : SliceClass → Bool
  | .errored => true
  | .severe => true
  | _ => false

/-- The open slice classified and offered to the worst-slice list (R133, R134). -/
def classifySlice (l : LaneState) : LaneState :=
  l.modProgress fun q =>
    let entry : WorstEntry := { index := q.sliceIndex, bits := heldBits l.acc.interval.sliceErrored }
    { countClass (sliceClass l) q with
      slicesClosed := q.slicesClosed + 1
      worst := if (sliceClass l).offered then offerWorst entry q.worst else q.worst }

/-- The next slice opened: index up, units and slice counters 0, the mark cleared and set again if the UNAVAILABLE
condition holds (R131, R132). -/
def openNextSlice (l : LaneState) : LaneState :=
  refreshMark ((l.modAcc fun a => { a with interval := { a.interval with sliceCompared := 0, sliceErrored := 0 } })
    |>.modProgress fun q => { q with sliceIndex := q.sliceIndex + 1, sliceUnits := 0, sliceMark := false })

/-- The close of a slice whose units have reached S (R131); otherwise nothing. -/
def sliceCloseIfDue (l : LaneState) : LaneState :=
  if l.timer.state == .run && l.timer.progress.sliceUnits == l.timer.config.slice then openNextSlice (classifySlice l)
  else l

/-! ### Rings -/

/-- A port's cursor after the record with sequence `gone` has been removed, where the cursor named it (R152 step 4). -/
def chargeRemoved (gone : BitVec 32) (c : ResultCursor) : ResultCursor :=
  if c.next = gone then { next := c.next + 1, skipped := saturatingAdd c.skipped 1 } else c

/-- A port's result cursor on lane n changed. -/
def PortState.modResult (v : PortState) (n : Lane) (f : ResultCursor → ResultCursor) : PortState :=
  { v with results := v.results.set n (f v.results[n]) }

/-- A record pushed to ring n (R152). -/
def pushRecord (s : State) (n : Lane) (r : IntervalRecord) : State :=
  let ring := (s.lane n).ring
  let grown := ring.records ++ [{ r with sequence := ring.nextSeq }]
  if Config.ringSize < grown.length then
    let t := s.modLane n fun l => { l with ring := { records := grown.tail, nextSeq := ring.nextSeq + 1 } }
    match grown.head? with
    | some old => t.modPorts fun v => v.modResult n (chargeRemoved old.sequence)
    | none => t
  else s.modLane n fun l => { l with ring := { records := grown, nextSeq := ring.nextSeq + 1 } }

/-! ### Closes -/

/-- The figure of an interval's counts (R136 step 2). -/
def intervalFigure (l : LaneState) : RateFigure :=
  rateFigure l.acc.interval.errored.value.toNat l.acc.interval.compared.value.toNat

/-- The alarm test of an interval (R137). -/
def alarmExceeded (l : LaneState) : Bool :=
  exceeds l.timer.config.alarm l.acc.interval.errored.value.toNat l.acc.interval.compared.value.toNat

/-- The record of Table 7-4, of a lane whose open slice has been classified; the ring gives the sequence number. -/
def buildRecord (n : Lane) (cause : CloseCause) (l : LaneState) : IntervalRecord where
  sequence := 0
  lane := n
  cause := cause
  unit := l.timer.config.unit
  elapsed := l.timer.progress.elapsed
  compared := l.acc.interval.compared.value
  errored := l.acc.interval.errored.value
  words := l.acc.interval.words.value
  alarm := alarmExceeded l
  figure := intervalFigure l
  comparedSaturated := l.acc.interval.compared.saturated
  erroredSaturated := l.acc.interval.errored.saturated
  wordsSaturated := l.acc.interval.words.saturated
  slicesClosed := l.timer.progress.slicesClosed
  clean := l.timer.progress.clean
  erroredSlices := l.timer.progress.errored
  severe := l.timer.progress.severe
  unavailable := l.timer.progress.unavailable
  gains := l.acc.interval.gains
  losses := l.acc.interval.losses
  tallies :=
    match l.checker.config.overflow with
    | .wrap => some { compared := l.acc.interval.compared.tally, errored := l.acc.interval.errored.tally,
                      words := l.acc.interval.words.tally }
    | .saturate => none
  firstError := l.acc.interval.firstError
  injected := l.route.associate.map fun _ => l.acc.interval.injected
  worst := l.timer.progress.worst

/-- The end of a close: accumulators zeroed, timer cleared, the last close recorded (R135, R136 step 5). The timer's
state is for the caller to settle. -/
def finishClose (cause : CloseCause) (recorded : Bool) (l : LaneState) : LaneState :=
  let m := (l.modAcc zeroInterval).modProgress fun _ => Reset.progress
  { m with timer := { m.timer with lastCause := some cause, lastRecorded := recorded } }

/-- The open slice classified when it has units (R136 step 1). -/
def classifyOpenSlice (l : LaneState) : LaneState :=
  if l.timer.progress.sliceUnits = 0 then l else classifySlice l

/-- Whether a close of this cause is offered to CHAIN followers (R124). -/
def CloseCause.startsFollowers : CloseCause → Bool
  | .expiry => true
  | .retrigger => true
  | .gateStop => false
  | .checkerStop => false

/-- A follower's offer after a close that a command of port `sender` made, or that no command made. -/
def ChainOffer.join (o : ChainOffer) (sender : Option Port) : ChainOffer :=
  { standing := true, owedA := o.owedA || sender == some .a, owedB := o.owedB || sender == some .b }

/-- Whether a command of port p made the close (R183). -/
def ChainOffer.owed (o : ChainOffer) : Port → Bool
  | .a => o.owedA
  | .b => o.owedB

/-- A timer to which lane n's close is offered: it takes the offer when it waits on CHAIN(n) (R124). -/
def takeOffer (n : Lane) (sender : Option Port) (l : LaneState) : LaneState :=
  if l.timer.state == .wait && l.timer.config.trigger == .chain n then
    { l with timer := { l.timer with chainOffer := l.timer.chainOffer.join sender } }
  else l

/-- Lane n's close offered to every timer (R124). -/
def offerClose (s : State) (n : Lane) (cause : CloseCause) (sender : Option Port) : State :=
  if cause.startsFollowers then { s with lanes := s.lanes.map (takeOffer n sender) } else s

/-- Whether the lane's interval makes a record when it closes (R135, R136). -/
def makesRecord (l : LaneState) : Bool := l.timer.progress.elapsed != 0

/-- A close that makes a record (R136 steps 1 to 5). -/
def closeWithRecord (s : State) (n : Lane) (cause : CloseCause) : State :=
  let l := classifyOpenSlice (s.lane n)
  let t := (pushRecord (s.setLane n l) n (buildRecord n cause l)).raise (.intervalClosed n)
  let t := if alarmExceeded l then t.raise (.threshold n) else t
  t.modLane n (finishClose cause true)

/-- The close of lane n's interval (R135, R136), offered to CHAIN followers (R124). `sender` is the port
whose command owes the followers their start, if one does. The timer's own next state, STOP or a fresh interval, is for
the caller. -/
def closeInterval (s : State) (n : Lane) (cause : CloseCause) (sender : Option Port) : State :=
  offerClose
    (if makesRecord (s.lane n) then closeWithRecord s n cause else s.modLane n (finishClose cause false)) n cause
    sender

/-- A close that leaves the timer in STOP, which no command owes to a follower (R124, R125, R126, R130). -/
def closeAndStop (s : State) (n : Lane) (cause : CloseCause) : State :=
  (closeInterval s n cause none).modLane n fun l => l.setTimer .stop

/-- A close that a fresh interval follows at once: a RETRIGGER of port `sender`, or an expiry (R122, R130). -/
def closeAndRestart (s : State) (n : Lane) (cause : CloseCause) (sender : Option Port) : State :=
  (closeInterval s n cause sender).modLane n startInterval

/-- The expiry of an interval whose elapsed units have reached L (R130); otherwise nothing. -/
def intervalExpiryIfDue (s : State) (n : Lane) : State :=
  let t := (s.lane n).timer
  if t.state == .run && t.progress.elapsed == t.config.length then
    match t.config.mode with
    | .once => closeAndStop s n .expiry
    | .repeating => closeAndRestart s n .expiry none
  else s

/-- One unit counted: elapsed and slice units up by 1, then the slice close and the expiry that fall due (R127, R128,
R130, R131). -/
def countUnit (s : State) (n : Lane) : State :=
  let t := s.modLane n fun l =>
    sliceCloseIfDue (l.modProgress fun q => { q with elapsed := q.elapsed + 1, sliceUnits := q.sliceUnits + 1 })
  intervalExpiryIfDue t n

/-- A tick at lane n's timer (R127). -/
def tickTimer (s : State) (n : Lane) : State :=
  if (s.lane n).timer.config.unit == .time && counting (s.lane n) then countUnit s n else s

/-- A waiting follower taking its source's close (R124); otherwise nothing. -/
def chainStartIfDue (l : LaneState) : LaneState :=
  if l.timer.chainOffer.standing && l.timer.state == .wait then startInterval l else l

end Sys2Proof.Machine
end

