-- ==== Sys2Proof/Machine/Frames.lean ====
section
/-!
DEFINITION. The frame of a port command: when it is taken, what must be in place before it, and how its command is
answered (R160 to R163, R168, R178, R183).
-/

namespace Sys2Proof.Machine

/-! ### What earlier commands of a port owe (R183) -/

/-- A lane's timer started, if it waits on a close that a command of port p made (R124, R183). -/
def startOwedAt (p : Port) (l : LaneState) : LaneState := if l.timer.chainOffer.owed p then chainStartIfDue l else l

/-- The state with the whole effect of port p's earlier commands in place (R183): every follower of their closes
started. Nothing else that a command does is left for a later step. -/
def State.startOwed (s : State) (p : Port) : State := { s with lanes := s.lanes.map (startOwedAt p) }

/-! ### Answers -/

/-- What a command does once its frame is taken: refuse with a status and change nothing (R162), answer with a status
and reply fields over a new state, or stop in a state the spec rules out. -/
inductive Answer where
  | refuse (st : Status)
  | done (st : Status) (fields : List Byte) (s : State)
  | stuck (f : Fault)

/-- A command's answer turned into the next state: the response replaces the buffer (R161), and a FRAME refusal raises
FRAME_FAULT (R163). `s` is the state the frame found. -/
def settleAnswer (p : Port) (code : Byte) (s : State) : Answer → Host.Outcome State Fault Refusal
  | .refuse st =>
    let t := s.respond p { status := st, code := code, fields := [] }
    .next (if st = .frame then t.raiseFrameFault p else t)
  | .done st fields t => .next (t.respond p { status := st, code := code, fields := fields })
  | .stuck f => .fault f

/-- The end of a select activity (R160, R178, R183). It is a frame when RESET_N is high and the select line became active
1 ms or more after its rise: then what earlier commands of the port still owe is done first, and then what the frame
carries. Any other changes nothing. -/
def frameEnds (f : Select) (s : State) (carried : State → Host.Outcome State Fault Refusal) :
    Host.Outcome State Fault Refusal :=
  if s.resetPhase = .released ∧ f.early = false then carried (s.startOwed f.port) else .next s

/-- A port command: its frame, of `1 + args.length` bytes, shifts the old response out, and at its end the command is
taken (R160, R161). -/
def portCommand (f : Select) (code : Byte) (args : List Byte) (body : State → Answer) (s : State) :
    Host.Outcome State Fault Refusal :=
  frameEnds f s fun u =>
    let t := u.shifted f.port (1 + args.length)
    settleAnswer f.port code t (body t)

/-- A port command whose one argument is a lane, checker or timer number. `needsLane` says that it needs that lane's
resource (R168). FRAME, RANGE and RESERVED are checked in the order of R162. -/
def laneCommand (f : Select) (code : Byte) (needsLane : Bool) (args : List Byte) (body : Lane → State → Answer)
    (s : State) : Host.Outcome State Fault Refusal :=
  portCommand f code args (s := s) fun t =>
    match args with
    | [b] =>
      match laneOfByte b with
      | none => .refuse .range
      | some n => if needsLane && heldByOther t f.port (laneResource n) then .refuse .reserved else body n t
    | _ => .refuse .frame

/-- A port command without arguments: its frame is one byte long. -/
def bareCommand (f : Select) (code : Byte) (args : List Byte) (body : State → Answer) (s : State) :
    Host.Outcome State Fault Refusal :=
  portCommand f code args (s := s) fun t => if args = [] then body t else .refuse .frame

end Sys2Proof.Machine
end

