-- ==== Sys2Proof/Machine/Operands.lean ====
section
/-!
DEFINITION. The operand forms of frames: argument bytes read into records, with the range checks, clamps and
substitutions of each (R2, R3, R30, R66, R78, R80, R118, R180), and the same records written into replies.
-/

namespace Sys2Proof.Machine

/-- A segment index argument (R15, R18, R30). -/
def segIndexOfByte (b : Byte) : Option (Fin 64) := if h : b.toNat < 64 then some ⟨b.toNat, h⟩ else none

/-- A resource identifier argument (R166). -/
def resourceOfByte (b : Byte) : Option (Fin 20) := if h : b.toNat < 20 then some ⟨b.toNat, h⟩ else none

/-- A word address argument (R19). -/
def addressOfBytes (bs : List Byte) : Option (Fin 4096) := if h : ofBe bs < 4096 then some ⟨ofBe bs, h⟩ else none

/-! ### Segment records (R2, R3, R180) -/

/-- The next byte of a segment record: an index, or 0xFF for END (R180); other codes are out of range. -/
def nextOfByte (b : Byte) : Option (Option (Fin 64)) :=
  if b = 0xFF then some none else (segIndexOfByte b).map some

/-- The order byte of a PRBS segment (R2, R180). -/
def orderOfByte (b : Byte) : Option PrbsOrder :=
  match b.toNat with
  | 7 => some .k7
  | 9 => some .k9
  | 11 => some .k11
  | 15 => some .k15
  | 23 => some .k23
  | 31 => some .k31
  | _ => none

/-- The stored value of a words field: 0 stands for 65536 (R2). -/
def storeWords (w : Nat) : BitVec 17 := if w = 0 then 65536 else BitVec.ofNat 17 w

/-- The stored value of a tail field: 0 and 9 to 255 are stored as 8 (R2). -/
def storeTail (t : Nat) : BitVec 4 := if t = 0 ∨ 8 < t then 8 else BitVec.ofNat 4 t

/-- The stored seed of order k (R3): the low k bits, or 2^k − 1 when they are all zero. -/
def storeSeed (k : Nat) (seed : BitVec 32) : BitVec 32 :=
  if lowBits k seed = 0 then BitVec.ofNat 32 (2 ^ k - 1) else lowBits k seed

/-- The kind of a segment record with the parameters of its kind (R180); `none` is out of range. `par` is the 16-byte
parameter area. -/
def segKindOfBytes (kind : Byte) (par : List Byte) : Option SegKind :=
  match kind.toNat with
  | 0 =>
    match orderOfByte (byteAt par 0), yesNoOfByte (byteAt par 1) with
    | some o, some inv => some (.prbs o inv (storeSeed o.k (BitVec.ofNat 32 (fieldAt par 2 4))))
    | _, _ => none
  | 1 =>
    some (.list (BitVec.ofNat 12 (fieldAt par 0 2)) (BitVec.ofNat 12 (fieldAt par 2 2))
      (BitVec.ofNat 12 (fieldAt par 4 2)))
  | 2 => some (.count (BitVec.ofNat 64 (fieldAt par 0 8)) (BitVec.ofNat 64 (fieldAt par 8 8)))
  | 3 => some (.fill (BitVec.ofNat 64 (fieldAt par 0 8)))
  | _ => none

/-- The record that 31 wire bytes store (Table 11-4); `none` when a field is out of range (R2). -/
def segmentOfBytes (bs : List Byte) : Option Segment :=
  match segKindOfBytes (byteAt bs 0) ((bs.drop 14).take 16), nextOfByte (byteAt bs 4), yesNoOfByte (byteAt bs 30) with
  | some kind, some next, some counted =>
    some { kind := kind, words := storeWords (fieldAt bs 1 2), reps := byteAt bs 3, next := next, counted := counted,
           mask := BitVec.ofNat 64 (fieldAt bs 6 8), tail := storeTail (byteAt bs 5).toNat }
  | _, _, _ => none

/-- The code of a segment kind (Table 11-3). -/
def segKindCode : SegKind → Byte
  | .prbs .. => 0
  | .list .. => 1
  | .count .. => 2
  | .fill .. => 3

/-- The parameter area of a segment record: 16 bytes, those that the kind does not use 0 (R180). -/
def segParamBytes : SegKind → List Byte
  | .prbs o inv seed => [BitVec.ofNat 8 o.k, yesNo inv] ++ beOf 4 seed ++ be 10 0
  | .list start stride rstep => beOf 2 start ++ beOf 2 stride ++ beOf 2 rstep ++ be 10 0
  | .count init inc => beOf 8 init ++ beOf 8 inc
  | .fill v => beOf 8 v ++ be 8 0

/-- The next byte of a stored record (R180). -/
def nextCode : Option (Fin 64) → Byte
  | none => 0xFF
  | some t => segIndexCode t

/-- The 31 bytes of a stored record (Table 11-4); a words value of 65536 is returned as 0 (R2). -/
def segmentBytes (sg : Segment) : List Byte :=
  [segKindCode sg.kind] ++ beOf 2 sg.words ++ [sg.reps, nextCode sg.next, BitVec.ofNat 8 sg.tail.toNat] ++
    beOf 8 sg.mask ++ segParamBytes sg.kind ++ [yesNo sg.counted]

/-- The defined byte, the 31 record bytes and the use set of a Segment Table index: all 0 when it is undefined (R17,
R180). -/
def slotBytes (slot : SegSlot) : List Byte :=
  match slot.record with
  | some sg => yesNo true :: segmentBytes sg ++ [slot.useSet]
  | none => be 33 0

/-! ### Plans (R30, R180) -/

/-- The plan mode byte. -/
def planModeOfByte (b : Byte) : Option PlanMode :=
  match b.toNat with
  | 0 => some .sequence
  | 1 => some .freeRun
  | _ => none

/-- The plan trigger byte. -/
def planTriggerOfByte (b : Byte) : Option PlanTrigger :=
  match b.toNat with
  | 0 => some .soft
  | 1 => some .trigRise
  | 2 => some .trigFall
  | 3 => some .trigBoth
  | _ => none

/-- The nine settable fields of a plan put into it from the 22 bytes of its wire form; `none` when one is out of range
(R30, R180). -/
def planOfBytes (old : Plan) (bs : List Byte) : Option Plan :=
  match planModeOfByte (byteAt bs 0), segIndexOfByte (byteAt bs 1), segIndexOfByte (byteAt bs 2),
    planTriggerOfByte (byteAt bs 3) with
  | some mode, some first, some anchor, some trigger =>
    if fieldAt bs 8 2 < 4096 then
      some { old with
        mode := mode, first := first, anchor := anchor, trigger := trigger,
        passCount := BitVec.ofNat 16 (fieldAt bs 4 2), pause := BitVec.ofNat 16 (fieldAt bs 6 2),
        passStep := BitVec.ofNat 12 (fieldAt bs 8 2), wordLimit := BitVec.ofNat 32 (fieldAt bs 10 4),
        idleWord := BitVec.ofNat 64 (fieldAt bs 14 8) }
    else none
  | _, _, _, _ => none

/-- The 22 bytes of a plan's settable fields (R180). -/
def planBytes (pl : Plan) : List Byte :=
  [planModeCode pl.mode, segIndexCode pl.first, segIndexCode pl.anchor, planTriggerCode pl.trigger] ++
    beOf 2 pl.passCount ++ beOf 2 pl.pause ++ beOf 2 pl.passStep ++ beOf 4 pl.wordLimit ++ beOf 8 pl.idleWord

/-! ### Injection settings (R66, R69) -/

/-- A period as stored: 0 and 1 are stored as 2 (R66). -/
def storePeriod (p : Nat) : BitVec 24 := if p < 2 then 2 else BitVec.ofNat 24 p

/-- The setting that INJECT_SET's kind, bit, length and period carry; `none` is out of range. A kind reads its own
arguments only (R66). -/
def injectionOfBytes (kind bit len : Byte) (period : Nat) : Option Injection :=
  match kind.toNat with
  | 0 => some .off
  | 1 => if bit.toNat < 64 then some (.single (BitVec.ofNat 6 bit.toNat)) else none
  | 2 =>
    if bit.toNat < 64 ∧ 1 ≤ len.toNat ∧ len.toNat ≤ 64 then
      some (.burst (BitVec.ofNat 6 bit.toNat) (BitVec.ofNat 7 len.toNat))
    else none
  | 3 => if bit.toNat < 64 then some (.periodic (BitVec.ofNat 6 bit.toNat) (storePeriod period)) else none
  | _ => none

/-- A setting in a reply: kind, bit, length, period (R66, R69). `free` are five free bytes, for the fields that the
kind does not use and whose value the spec does not state (DESIGN CHOICE, log 8). -/
def injectionBytes (x : Injection) (free : List Byte) : List Byte :=
  match x with
  | .off => 0 :: free.take 5
  | .single bit => [1, BitVec.ofNat 8 bit.toNat] ++ (free.drop 1).take 4
  | .burst bit len => [2, BitVec.ofNat 8 bit.toNat, BitVec.ofNat 8 len.toNat] ++ (free.drop 2).take 3
  | .periodic bit period => [3, BitVec.ofNat 8 bit.toNat] ++ (free.drop 1).take 1 ++ beOf 3 period

/-! ### Routes and checker configurations (R78, R80) -/

/-- The source of a route entry (R78). -/
def sourceOfBytes (kind lane : Byte) : Option Source :=
  match kind.toNat, laneOfByte lane with
  | 0, some m => some (.external m)
  | 1, some m => some (.loop m)
  | _, _ => none

/-- The associate byte: 0xFF is NONE (R78, chapter 11 notes to Table 11-2). -/
def associateOfByte (b : Byte) : Option (Option Lane) := if b = 0xFF then some none else (laneOfByte b).map some

/-- The route entry that three argument bytes carry. -/
def routeOfBytes (kind lane associate : Byte) : Option Route :=
  match sourceOfBytes kind lane, associateOfByte associate with
  | some src, some g => some { source := src, associate := g }
  | _, _ => none

/-- The associate byte of an entry in a reply. Table 11-2 gives 0xFF for NONE in the argument; that the reply carries the
same byte, with no presence byte, is the model's (DESIGN CHOICE, log 32). -/
def associateCode : Option Lane → Byte
  | none => 0xFF
  | some g => laneCode g

/-- A route entry in a reply: source kind, source lane, associate. -/
def routeBytes (r : Route) : List Byte :=
  (match r.source with
    | .external m => [0, laneCode m]
    | .loop m => [1, laneCode m]) ++ [associateCode r.associate]

/-- A verify count as stored, 1 to 15 (R80). -/
def storeVerify (b : Byte) : BitVec 4 := if b = 0 then 1 else if 15 < b.toNat then 15 else BitVec.ofNat 4 b.toNat

/-- A loss threshold as stored, 1 to 63 (R80). -/
def storeLoss (b : Byte) : BitVec 6 := if b = 0 then 1 else if 63 < b.toNat then 63 else BitVec.ofNat 6 b.toNat

/-- The overflow mode byte. -/
def overflowOfByte (b : Byte) : Option OverflowMode :=
  match b.toNat with
  | 0 => some .saturate
  | 1 => some .wrap
  | _ => none

/-- The configuration that CHECK_CONFIG's four bytes store (R80). -/
def checkConfigOfBytes (plan v t mode : Byte) : Option CheckConfig :=
  match laneOfByte plan, overflowOfByte mode with
  | some p, some m => some { planLane := p, verify := storeVerify v, threshold := storeLoss t, overflow := m }
  | _, _ => none

/-- A checker configuration in a reply. -/
def checkConfigBytes (c : CheckConfig) : List Byte :=
  [laneCode c.planLane, BitVec.ofNat 8 c.verify.toNat, BitVec.ofNat 8 c.threshold.toNat, overflowCode c.overflow]

/-! ### Timer configurations (R118) -/

/-- The unit byte. -/
def timerUnitOfByte (b : Byte) : Option TimerUnit :=
  match b.toNat with
  | 0 => some .time
  | 1 => some .words
  | _ => none

/-- The timer mode byte. -/
def timerModeOfByte (b : Byte) : Option TimerMode :=
  match b.toNat with
  | 0 => some .once
  | 1 => some .repeating
  | _ => none

/-- The trigger and chain lane bytes for timer n: CHAIN(m) needs m below 4 and other than n (R118). The chain lane of
another trigger is not read (R179). -/
def gateTriggerOfBytes (n : Lane) (trigger chain : Byte) : Option GateTrigger :=
  match trigger.toNat with
  | 0 => some .soft
  | 1 => some .gateRise
  | 2 => some .gateFall
  | 3 => some .gateBoth
  | 4 => some .levelHigh
  | 5 => some .levelLow
  | 6 =>
    match laneOfByte chain with
    | some m => if m = n then none else some (.chain m)
    | none => none
  | _ => none

/-- A length L or slice S as stored: 0 is stored as 1 (R118). -/
def storeUnits (w v : Nat) : BitVec w := if v = 0 then 1 else BitVec.ofNat w v

/-- The configuration that the 15 bytes after GATE_CONFIG's lane store (R118). -/
def timerConfigOfBytes (n : Lane) (bs : List Byte) : Option TimerConfig :=
  match timerUnitOfByte (byteAt bs 0), timerModeOfByte (byteAt bs 6),
    gateTriggerOfBytes n (byteAt bs 7) (byteAt bs 8) with
  | some unit, some mode, some trigger =>
    some { unit := unit, length := storeUnits 24 (fieldAt bs 1 3), slice := storeUnits 16 (fieldAt bs 4 2),
           mode := mode, trigger := trigger,
           alarm := storeThreshold (BitVec.ofNat 16 (fieldAt bs 9 2)) (byteAt bs 11),
           severe := storeThreshold (BitVec.ofNat 16 (fieldAt bs 12 2)) (byteAt bs 14) }
  | _, _, _ => none

/-- The chain lane byte of a trigger in a reply; for a trigger other than CHAIN the spec does not state it, and it is
the free byte (DESIGN CHOICE, log 9). -/
def chainCode (free : Byte) : GateTrigger → Byte
  | .chain m => laneCode m
  | _ => free

/-- A threshold in a reply. -/
def thresholdBytes (t : Threshold) : List Byte := beOf 2 t.tm ++ [t.tx]

/-- A timer configuration in a reply, in the order of GATE_CONFIG's arguments (R118, R138). -/
def timerConfigBytes (c : TimerConfig) (free : Byte) : List Byte :=
  [timerUnitCode c.unit] ++ beOf 3 c.length ++ beOf 2 c.slice ++
    [timerModeCode c.mode, gateTriggerCode c.trigger, chainCode free c.trigger] ++
    thresholdBytes c.alarm ++ thresholdBytes c.severe

/-- How many free bytes a timer configuration's reply takes: one when the trigger is not CHAIN (log 9). -/
def chainFree : GateTrigger → Nat
  | .chain _ => 0
  | _ => 1

/-- How many free bytes an injection setting's reply takes: one for each of its bit, length and period bytes, used or
not (log 8). -/
def injectionFree : Nat := 5

/-! ### Positions, figures and records in replies -/

/-- A position in a reply: segment, r, i, p (R60, R99). -/
def posBytes (q : Pos) : List Byte := [segIndexCode q.seg, q.r] ++ beOf 2 q.i ++ beOf 4 q.p

/-- A rate figure in a TOTALS_READ reply: M, X, clamped (R144). -/
def figureBytes (f : RateFigure) : List Byte := beOf 2 f.m ++ [f.x, yesNo f.clamped]

/-- A worst-slice list, 7 bytes an entry (R181). -/
def worstBytes (ws : List WorstEntry) : List Byte := ws.flatMap fun e => beOf 3 e.index ++ beOf 4 e.bits

/-- One bit of a flag byte. -/
def flagBit (b : Bool) (i : Nat) : Nat := if b then 2 ^ i else 0

/-- The flag byte of a record (R181). -/
def recordFlags (r : IntervalRecord) : Byte :=
  BitVec.ofNat 8 (flagBit r.alarm 7 + flagBit r.figure.clamped 6 + flagBit r.comparedSaturated 5 +
    flagBit r.erroredSaturated 4 + flagBit r.wordsSaturated 3 + flagBit r.tallies.isSome 2 +
    flagBit r.firstError.isSome 1 + flagBit r.injected.isSome 0)

/-- The fixed part of a record, 49 bytes (Table 11-5). -/
def recordFixed (r : IntervalRecord) : List Byte :=
  beOf 4 r.sequence ++ [laneCode r.lane, closeCauseCode (some r.cause), timerUnitCode r.unit, recordFlags r] ++
    beOf 3 r.elapsed ++ beOf 6 r.compared ++ beOf 5 r.errored ++ beOf 4 r.words ++ beOf 2 r.figure.m ++ [r.figure.x] ++
    beOf 3 r.slicesClosed ++ beOf 3 r.clean ++ beOf 3 r.erroredSlices ++ beOf 3 r.severe ++ beOf 3 r.unavailable ++
    beOf 2 r.gains ++ beOf 2 r.losses ++ [BitVec.ofNat 8 r.worst.length]

/-- The wrap tallies of a record, when present (R181). -/
def tallyBytes : Option WrapTallies → List Byte
  | none => []
  | some t => [t.compared, t.errored, t.words]

/-- An optional part of `k` bytes that stands only when present (R181). -/
def presentBytes {w : Nat} (k : Nat) : Option (BitVec w) → List Byte
  | none => []
  | some v => beOf k v

/-- An interval record on the wire, 49 to 90 bytes (R181). -/
def recordBytes (r : IntervalRecord) : List Byte :=
  recordFixed r ++ tallyBytes r.tallies ++ presentBytes 6 r.firstError ++ presentBytes 4 r.injected ++
    worstBytes r.worst

/-- The five run totals in a reply: the totals, then their flags, then their tallies (R112, R113; DESIGN CHOICE,
log 11). -/
def runTotalsBytes (t : RunTotals) : List Byte :=
  beOf 7 t.compared.value ++ beOf 6 t.errored.value ++ beOf 5 t.words.value ++ beOf 4 t.gains.value ++
    beOf 4 t.losses.value ++
    [yesNo t.compared.saturated, yesNo t.errored.saturated, yesNo t.words.saturated, yesNo t.gains.saturated,
      yesNo t.losses.saturated] ++
    [t.compared.tally, t.errored.tally, t.words.tally, t.gains.tally, t.losses.tally]

/-- The interval accumulators in a TOTALS_READ reply, in the order R112 lists them (log 11). -/
def intervalAccBytes (a : IntervalAcc) : List Byte :=
  beOf 6 a.compared.value ++ beOf 5 a.errored.value ++ beOf 4 a.words.value ++
    [yesNo a.compared.saturated, yesNo a.errored.saturated, yesNo a.words.saturated] ++
    [a.compared.tally, a.errored.tally, a.words.tally] ++
    beOf 2 a.gains ++ beOf 2 a.losses ++ beOf 4 a.injected ++ optional 6 a.firstError

end Sys2Proof.Machine
end

