-- ==== Sys2Proof/Machine/Receive.lean ====
section
/-!
DEFINITION. What a checker does with an arriving word: search, verification, lock, comparison and the loss of lock
(R76, R81, R86 to R103).
-/

namespace Sys2Proof.Machine

/-- A lane with a changed checker. -/
def LaneState.modChecker (l : LaneState) (f : Checker → Checker) : LaneState := { l with checker := f l.checker }

/-! ### The reference walk -/

/-- The record of a segment that a walker stands in. Undefined is excluded by R35 (log 14). -/
def definedSegment (s : State) (i : Fin 64) : Except Fault Segment :=
  match s.record i with
  | some sg => .ok sg
  | none => .error .undefinedSegment

/-- The PRBS parameters and mask of a FREE-RUN plan's segment (R25). Another kind is excluded by R28 and R35
(log 14). -/
def freeRunSegment (s : State) (i : Fin 64) : Except Fault (PrbsOrder × Bool × BitVec 32 × Word) :=
  match definedSegment s i with
  | .error f => .error f
  | .ok sg =>
    match sg.kind with
    | .prbs o invert seed => .ok (o, invert, seed, sg.mask)
    | _ => .error .notPrbs

/-- What a reference walk expects of an arriving word: the counted reference word with its effective mask, or nothing
compared, and the checker with its reference advanced past the word (R86, R87). -/
structure Expected where
  compare : Option (Word × Word)
  advanced : Checker

/-- The reference of a SEQUENCE checker advanced past a word of segment `sg` (R86): at a pass end p goes up by 1 and
the plan's pause follows. -/
def advanceReference (pl : Plan) (sg : Segment) (pos : Pos) : Pos :=
  match advance sg pos with
  | .onward q => q
  | .passEnd => passStart pl.first (pos.p + 1) pl.pause

/-- What the reference of checker n expects of the next word (R86, R87). -/
def expected (s : State) (n : Lane) : Except Fault Expected :=
  let c := (s.lane n).checker
  let pl := checkerPlan s n
  match c.mode with
  | .freeRun =>
    match freeRunSegment s pl.first with
    | .error f => .error f
    | .ok (o, invert, _, mask) =>
      .ok { compare := some (inverted invert (prbsRawWord o c.prbs), mask)
            advanced := { c with prbs := prbsAfterWord o c.prbs } }
  | .sequence =>
    if c.pos.pause = 0 then
      match definedSegment s c.pos.seg with
      | .error f => .error f
      | .ok sg =>
        .ok { compare :=
                if sg.counted then some (formWord s.store sg pl.passStep c.pos, effectiveMask sg c.pos.i) else none
              advanced := { c with pos := advanceReference pl sg c.pos } }
    else .ok { compare := none, advanced := { c with pos := { c.pos with pause := c.pos.pause - 1 } } }

/-! ### SEARCH -/

/-- A checker positioned in VERIFY with no progress (R89, R92). -/
def enterVerify (c : Checker) (pos : Pos) (prbs : BitVec 32) : Checker :=
  { c with state := .verify, progress := 0, pos := pos, prbs := prbs }

/-- The position of the anchor word, and its word (R89). -/
def anchorPos (pl : Plan) : Pos := passStart pl.anchor 1 0

/-- Whether a received word matches the anchor word under the match mask (R89). -/
def anchorMatches (s : State) (pl : Plan) (sg : Segment) (w : Word) : Bool :=
  w &&& matchMask sg == formWord s.store sg pl.passStep (anchorPos pl) &&& matchMask sg

/-- A word tested in SEARCH (R89, R92). -/
def searchWord (s : State) (n : Lane) (w : Word) : Except Fault State :=
  let pl := checkerPlan s n
  match (s.lane n).checker.mode with
  | .sequence =>
    match definedSegment s pl.anchor with
    | .error f => .error f
    | .ok sg =>
      .ok (if anchorMatches s pl sg w then
          s.modLane n fun l => l.modChecker fun c => enterVerify c (advanceReference pl sg (anchorPos pl)) c.prbs
        else s)
  | .freeRun =>
    match freeRunSegment s pl.first with
    | .error f => .error f
    | .ok (o, invert, _, _) =>
      match selfSync o invert w with
      | none => .ok s
      | some st => .ok (s.modLane n fun l => l.modChecker fun c => enterVerify c (passStart pl.first 1 0) st)

/-! ### VERIFY -/

/-- A checker that holds no reference position, in a state (R81). -/
def discardReference (c : Checker) (st : CheckState) : Checker :=
  { c with state := st, progress := 0, slip := 0, pos := Reset.pos }

/-- Lock gained (R94, R98): LOCKED with slip score 0, the gain counted and LOCK_GAINED raised. -/
def gainLock (s : State) (n : Lane) (advanced : Checker) : State :=
  let t := s.modLane n fun l =>
    l.modChecker fun _ => { advanced with state := .locked, progress := 0, slip := 0 }
  let t := setRun t n ((t.lane n).acc.run.addGain (t.lane n).checker.config.overflow)
  let t := t.modLane n fun l =>
    if counting l then
      l.modAcc fun a => { a with interval := { a.interval with gains := saturatingAdd a.interval.gains 1 } }
    else l
  t.raise (.lockGained n)

/-- A word handled in VERIFY (R94). -/
def verifyWord (s : State) (n : Lane) (x : Expected) (w : Word) : State :=
  match x.compare with
  | none => s.modLane n fun l => l.modChecker fun _ => x.advanced
  | some (ref, mask) =>
    if erroredBits w ref mask = 0 then
      if x.advanced.progress.toNat + 1 < x.advanced.config.verify.toNat then
        s.modLane n fun l => l.modChecker fun _ => { x.advanced with progress := x.advanced.progress + 1 }
      else gainLock s n x.advanced
    else s.modLane n fun l => l.modChecker fun c => discardReference c .search

/-! ### LOCKED -/

/-- The counts of a compared word handed to the run totals (R102 step 1, R103). -/
def accumulateRun (s : State) (n : Lane) (c e : Nat) : State :=
  setRun s n ((s.lane n).acc.run.addWord (s.lane n).checker.config.overflow c e)

/-- The counts of a compared word handed to the interval, when it counts (R102 step 2, R105). -/
def accumulateInterval (s : State) (n : Lane) (c e : Nat) : State :=
  if counting (s.lane n) then
    setInterval s n ((s.lane n).acc.interval.addWord (s.lane n).checker.config.overflow c e)
  else s

/-- The timer told of an accumulated word (R102 step 3, R128). -/
def accumulatedUnit (s : State) (n : Lane) : State :=
  if counting (s.lane n) && (s.lane n).timer.config.unit == .words then countUnit s n else s

/-- Lock lost (R97): the slip score and the position discarded, the loss counted, SEARCH entered, LOCK_LOST raised. The
loss marks the open slice when the interval counts (R132, both units). -/
def loseLock (s : State) (n : Lane) : State :=
  let t := s.modLane n fun l => l.modChecker fun c => discardReference c .search
  let t := setRun t n ((t.lane n).acc.run.addLoss (t.lane n).checker.config.overflow)
  let t := t.modLane n fun l =>
    if counting l then
      (l.modAcc fun a => { a with interval := { a.interval with losses := saturatingAdd a.interval.losses 1 } })
        |>.modProgress fun q => { q with sliceMark := true }
    else l
  t.raise (.lockLost n)

/-- The slip score after a compared word with e errored bits, or `none` when it would pass T (R96). -/
def nextSlip (c : Checker) (e : Nat) : Option (BitVec 6) :=
  if e = 0 then some (if c.slip = 0 then 0 else c.slip - 1)
  else if c.config.threshold.toNat < c.slip.toNat + 1 then none
  else some (c.slip + 1)

/-- The slip score moved, lock lost or the reference advanced (R86 step 3, R96, R97, R102 step 4). -/
def moveSlip (s : State) (n : Lane) (advanced : Checker) (e : Nat) : State :=
  match nextSlip (s.lane n).checker e with
  | none => loseLock s n
  | some slip => s.modLane n fun l => l.modChecker fun _ => { advanced with slip := slip }

/-- A word handled in LOCKED (R96, R101, R102). -/
def lockedWord (s : State) (n : Lane) (x : Expected) (w : Word) : State :=
  match x.compare with
  | none => s.modLane n fun l => l.modChecker fun _ => x.advanced
  | some (ref, mask) =>
    let c := ones mask
    let e := erroredBits w ref mask
    moveSlip (accumulatedUnit (accumulateInterval (accumulateRun s n c e) n c e) n) n x.advanced e

/-! ### One word at one checker, and a word on a source -/

/-- A word arriving at checker n, handled as its state gives (R76, R81). -/
def receiveAt (s : State) (n : Lane) (w : Word) : Except Fault State :=
  match (s.lane n).checker.state with
  | .off => .ok s
  | .search => searchWord s n w
  | .verify =>
    match expected s n with
    | .error f => .error f
    | .ok x => .ok (verifyWord s n x w)
  | .locked =>
    match expected s n with
    | .error f => .error f
    | .ok x => .ok (lockedWord s n x w)

/-- A word of a source delivered to checker n, if its route names that source (R76). -/
def deliverTo (src : Source) (w : Word) (s : State) (n : Lane) : Except Fault State :=
  if (s.lane n).route.source = src then receiveAt s n w else .ok s

/-- A word of a source delivered to every checker whose route names it (R76). -/
def deliver (src : Source) (w : Word) (s : State) : Except Fault State :=
  match deliverTo src w s 0 with
  | .error f => .error f
  | .ok s0 =>
    match deliverTo src w s0 1 with
    | .error f => .error f
    | .ok s1 =>
      match deliverTo src w s1 2 with
      | .error f => .error f
      | .ok s2 => deliverTo src w s2 3

/-- The outcome of a step that a walker may leave without a next state. -/
def walkOutcome : Except Fault State → Host.Outcome State Fault Refusal
  | .ok s => .next s
  | .error f => .fault f

end Sys2Proof.Machine
end

