-- ==== Sys2Proof/Machine/CheckerCommands.lean ====
section
/-!
DEFINITION. Commands on routes, checkers and accumulators (R78, R80, R82 to R84, R99, R112, R113).
-/

namespace Sys2Proof.Machine

/-- ROUTE_SET (R78). -/
def execRouteSet (f : Select) (args : List Byte) (s : State) : Host.Outcome State Fault Refusal :=
  portCommand f 0x38 args (s := s) fun t =>
    match args with
    | [b, kind, m, g] =>
      match laneOfByte b, routeOfBytes kind m g with
      | some n, some r =>
        if heldByOther t f.port (laneResource n) then .refuse .reserved
        else if (t.lane n).checker.state ≠ .off then .refuse .busy
        else .done .ok (laneCode n :: routeBytes r) (t.modLane n fun l => { l with route := r })
      | _, _ => .refuse .range
    | _ => .refuse .frame

/-- The run totals and the interval accumulators zeroed, with both latches (R80, R82, R104, R107). -/
def zeroAll (a : Accumulators) : Accumulators := zeroInterval (zeroRun a)

/-- A checker configuration replaced (R80): a change of overflow mode zeroes the accumulators. -/
def configureChecker (cfg : CheckConfig) (l : LaneState) : LaneState :=
  let m := l.modChecker fun c => { c with config := cfg }
  if l.checker.config.overflow = cfg.overflow then m else m.modAcc zeroAll

/-- CHECK_CONFIG (R80). -/
def execCheckConfig (f : Select) (args : List Byte) (s : State) : Host.Outcome State Fault Refusal :=
  portCommand f 0x39 args (s := s) fun t =>
    match args with
    | [b, plan, v, th, mode] =>
      match laneOfByte b, checkConfigOfBytes plan v th mode with
      | some n, some cfg =>
        if heldByOther t f.port (laneResource n) then .refuse .reserved
        else if (t.lane n).checker.state ≠ .off then .refuse .busy
        else .done .ok (laneCode n :: checkConfigBytes cfg) (t.modLane n (configureChecker cfg))
      | _, _ => .refuse .range
    | _ => .refuse .frame

/-- CHECK_START taken on lane n (R82): the reach set of the plan it follows marked, accumulators zeroed, SEARCH. -/
def startChecker (s : State) (n : Lane) : State :=
  let pl := checkerPlan s n
  (s.mark pl.reach (.checker n)).modLane n fun l =>
    (l.modAcc zeroAll).modChecker fun c => { discardReference c .search with mode := pl.mode }

/-- CHECK_START (R82, R83). -/
def execCheckStart (f : Select) (args : List Byte) (s : State) : Host.Outcome State Fault Refusal :=
  laneCommand f 0x3A true args (s := s) fun n t =>
    if (t.lane n).checker.state = .off ∧ (checkerPlan t n).valid = true then
      .done .ok [laneCode n, checkStateCode .search] (startChecker t n)
    else .refuse .state

/-- CHECK_STOP taken on lane n (R84): a running interval closed with cause CHECKER_STOP, marks removed, OFF. -/
def stopChecker (s : State) (n : Lane) : State :=
  let t := if (s.lane n).timer.state = .run then closeAndStop s n .checkerStop else s
  (t.unmark (.checker n)).modLane n fun l => l.modChecker fun c => discardReference c .off

/-- CHECK_STOP (R84). -/
def execCheckStop (f : Select) (args : List Byte) (s : State) : Host.Outcome State Fault Refusal :=
  laneCommand f 0x3B true args (s := s) fun n t =>
    .done .ok [laneCode n, checkStateCode (t.lane n).checker.state, yesNo ((t.lane n).timer.state == .run)]
      (stopChecker t n)

/-- The mode that CHECK_STATUS shows (R99): the one taken at CHECK_START, or the plan's while the checker is OFF. -/
def shownMode (s : State) (n : Lane) : PlanMode :=
  if (s.lane n).checker.state = .off then (checkerPlan s n).mode else (s.lane n).checker.mode

/-- The fields of a CHECK_STATUS reply (R99). -/
def checkStatusFields (s : State) (n : Lane) : List Byte :=
  let c := (s.lane n).checker
  [laneCode n, checkStateCode c.state] ++ checkConfigBytes c.config ++ [planModeCode (shownMode s n)] ++
    routeBytes (s.lane n).route ++ [BitVec.ofNat 8 c.progress.toNat, BitVec.ofNat 8 c.slip.toNat] ++ posBytes c.pos ++
    beOf 2 c.pos.pause

/-- CHECK_STATUS (R99). -/
def execCheckStatus (f : Select) (args : List Byte) (s : State) : Host.Outcome State Fault Refusal :=
  laneCommand f 0x3C false args (s := s) fun n t => .done .ok (checkStatusFields t n) t

/-- The run rate figure (R149). -/
def runFigure (l : LaneState) : RateFigure :=
  rateFigure l.acc.run.errored.value.toNat l.acc.run.compared.value.toNat

/-- The fields of a TOTALS_READ reply (R112). -/
def totalsReadFields (n : Lane) (l : LaneState) : List Byte :=
  [laneCode n, checkStateCode l.checker.state, overflowCode l.checker.config.overflow] ++
    runTotalsBytes l.acc.run ++ figureBytes (runFigure l) ++ [yesNo (counting l)] ++
    intervalAccBytes l.acc.interval ++ figureBytes (intervalFigure l) ++
    [yesNo l.acc.runLatch, yesNo l.acc.intervalLatch]

/-- TOTALS_READ (R112). -/
def execTotalsRead (f : Select) (args : List Byte) (s : State) : Host.Outcome State Fault Refusal :=
  laneCommand f 0x40 false args (s := s) fun n t => .done .ok (totalsReadFields n (t.lane n)) t

/-- TOTALS_CLEAR (R113). -/
def execTotalsClear (f : Select) (args : List Byte) (s : State) : Host.Outcome State Fault Refusal :=
  laneCommand f 0x41 true args (s := s) fun n t =>
    .done .ok (laneCode n :: runTotalsBytes (t.lane n).acc.run) (t.modLane n fun l => l.modAcc zeroRun)

end Sys2Proof.Machine
end

