-- ==== Sys2Proof/Machine/GateCommands.lean ====
section
/-!
DEFINITION. Commands on interval timers (R118, R120, R122, R125, R138).
-/

namespace Sys2Proof.Machine

/-- GATE_CONFIG (R118). -/
def execGateConfig (f : Select) (args : List Byte) (s : State) : Host.Outcome State Fault Refusal :=
  portCommand f 0x48 args (s := s) fun t =>
    if args.length = 16 then
      match laneOfByte (byteAt args 0) with
      | none => .refuse .range
      | some n =>
        match timerConfigOfBytes n (args.drop 1) with
        | none => .refuse .range
        | some cfg =>
          if heldByOther t f.port (laneResource n) then .refuse .reserved
          else if (t.lane n).timer.state ≠ .stop then .refuse .busy
          else
            .done .ok (laneCode n :: timerConfigBytes cfg (Config.freeByte t.freeCount))
              ((t.modLane n fun l => { l with timer := { l.timer with config := cfg } }).useFree
                (chainFree cfg.trigger))
    else .refuse .frame

/-- A timer armed from STOP (R120): WAIT, or an interval started at once under a LEVEL trigger. -/
def armTimer (l : LaneState) : LaneState :=
  if l.timer.config.trigger.isLevel then startInterval l else l.setTimer .wait

/-- GATE_ARM (R120). -/
def execGateArm (f : Select) (args : List Byte) (s : State) : Host.Outcome State Fault Refusal :=
  laneCommand f 0x49 true args (s := s) fun n t =>
    if (t.lane n).timer.state = .stop then
      .done .ok [laneCode n, timerStateCode (armTimer (t.lane n)).timer.state] (t.modLane n armTimer)
    else .refuse .state

/-- GATE_TRIGGER (R122): STARTED 0 from WAIT, RETRIGGERED 1 from RUN with whether the close made a record. Its reply
names no lane (log 13). -/
def execGateTrigger (f : Select) (args : List Byte) (s : State) : Host.Outcome State Fault Refusal :=
  laneCommand f 0x4A true args (s := s) fun n t =>
    match (t.lane n).timer.state with
    | .stop => .refuse .state
    | .wait => .done .ok [0, yesNo false] (t.modLane n startInterval)
    | .run => .done .ok [1, yesNo (makesRecord (t.lane n))] (closeAndRestart t n .retrigger (some f.port))

/-- GATE_STOP taken on lane n (R125). -/
def stopTimer (s : State) (n : Lane) : State :=
  match (s.lane n).timer.state with
  | .stop => s
  | .wait => s.modLane n fun l => l.setTimer .stop
  | .run => closeAndStop s n .gateStop

/-- GATE_STOP (R125). -/
def execGateStop (f : Select) (args : List Byte) (s : State) : Host.Outcome State Fault Refusal :=
  laneCommand f 0x4B true args (s := s) fun n t =>
    .done .ok
      [laneCode n, timerStateCode (t.lane n).timer.state,
        yesNo ((t.lane n).timer.state == .run && makesRecord (t.lane n))]
      (stopTimer t n)

/-- The fields of a GATE_STATUS reply (R138); the line's level and the list's length byte are log 12. -/
def gateStatusFields (n : Lane) (l : LaneState) (free : Byte) : List Byte :=
  let q := l.timer.progress
  [laneCode n, timerStateCode l.timer.state] ++ timerConfigBytes l.timer.config free ++
    [yesNo (l.gateLine == .high), yesNo (gateActive l)] ++
    beOf 3 q.elapsed ++ beOf 3 q.sliceIndex ++ beOf 2 q.sliceUnits ++ [yesNo q.sliceMark] ++
    beOf 3 q.slicesClosed ++ beOf 3 q.clean ++ beOf 3 q.errored ++ beOf 3 q.severe ++ beOf 3 q.unavailable ++
    [BitVec.ofNat 8 q.worst.length] ++ worstBytes q.worst ++
    [closeCauseCode l.timer.lastCause, yesNo l.timer.lastRecorded]

/-- GATE_STATUS (R138). -/
def execGateStatus (f : Select) (args : List Byte) (s : State) : Host.Outcome State Fault Refusal :=
  laneCommand f 0x4C false args (s := s) fun n t =>
    .done .ok (gateStatusFields n (t.lane n) (Config.freeByte t.freeCount))
      (t.useFree (chainFree (t.lane n).timer.config.trigger))

end Sys2Proof.Machine
end

