-- ==== Sys2Proof/Machine/Generate.lean ====
section
/-!
DEFINITION. What a generator does: starts, triggers, the walk of a run and its ends, with injection and the transmit
signature (R37 to R59, R61 to R72).
-/

namespace Sys2Proof.Machine

/-- A lane with a changed generator. -/
def LaneState.modGen (l : LaneState) (f : Generator → Generator) : LaneState := { l with gen := f l.gen }

/-! ### Runs -/

/-- The seed of a FREE-RUN run (R53): the stored seed of segment first. -/
def freeRunSeed (s : State) (pl : Plan) : BitVec 32 :=
  match (s.record pl.first).map Segment.kind with
  | some (.prbs _ _ seed) => seed
  | _ => 0

/-- A run begun on lane n (R43): RUNNING at pass 1 of segment first, words emitted, passes done and the injection
period count 0 (R65), a FREE-RUN recurrence seeded (R53). -/
def beginRun (s : State) (n : Lane) : State :=
  s.modLane n fun l =>
    { l with
      gen := { l.gen with
        state := .running
        pos := passStart l.plan.first 1 0
        wordsEmitted := 0
        passesDone := 0
        prbs := freeRunSeed s l.plan }
      inject := { l.inject with periodCount := 0 } }

/-- The outcome that LANE_TRIGGER reports (R41). -/
inductive TriggerOutcome where
  | runStarted | pendingSet | pendingHeld
deriving DecidableEq, Repr

/-- A trigger taken by a generator outside STOPPED (R41, R42): its outcome and what it leaves. -/
def takeTrigger (s : State) (n : Lane) : TriggerOutcome × State :=
  if (s.lane n).gen.state = .armed then (.runStarted, beginRun s n)
  else if (s.lane n).gen.pendingTrigger then (.pendingHeld, s)
  else (.pendingSet, s.modLane n fun l => l.modGen fun g => { g with pendingTrigger := true })

/-- Whether an edge to `level` matches a plan trigger (R42). -/
def PlanTrigger.matchesEdge (t : PlanTrigger) (level : Level) : Bool :=
  match t with
  | .trigRise => level == .high
  | .trigFall => level == .low
  | .trigBoth => true
  | .soft => false

/-- A generator that enters ARMED at a run end: runs completed up by 1, the position at the start of the plan with p 0
(R49, R51). -/
def armAfterRun (pl : Plan) (g : Generator) : Generator :=
  { g with state := .armed, pos := passStart pl.first 0 0, runsCompleted := g.runsCompleted + 1 }

/-- Whether a generator is in a run. -/
def inRun (g : Generator) : Bool := g.state == .running || g.state == .pausing

/-- Whether a run has reached its plan's word limit (R51). -/
def limitReached (pl : Plan) (g : Generator) : Bool :=
  inRun g && pl.wordLimit != 0 && g.wordsEmitted.toNat == pl.wordLimit.toNat

/-- A run ended by the word limit (R51): the pending trigger discarded, ARMED, RUN_DONE; otherwise nothing. -/
def wordLimitIfReached (s : State) (n : Lane) : State :=
  if limitReached (s.lane n).plan (s.lane n).gen then
    (s.modLane n fun l => l.modGen fun g => { armAfterRun l.plan g with pendingTrigger := false }).raise (.runDone n)
  else s

/-- The end of a pause (R48): with no pause words remaining, the generator returns to RUNNING; otherwise nothing. -/
def pauseEndIfDue (l : LaneState) : LaneState :=
  if l.gen.state == .pausing && l.gen.pos.pause == 0 then l.modGen fun g => { g with state := .running } else l

/-- The end of a run by passes (R49). -/
def endRunByPasses (s : State) (n : Lane) : State :=
  if (s.lane n).gen.pendingTrigger then
    beginRun
      (s.modLane n fun l =>
        l.modGen fun g => { g with pendingTrigger := false, runsCompleted := g.runsCompleted + 1 }) n
  else (s.modLane n fun l => l.modGen (armAfterRun l.plan)).raise (.runDone n)

/-- The pass signature latched and passes done increased (R47 steps 1 and 2, R72). -/
def latchPass (l : LaneState) : LaneState :=
  { l with
    sig := { l.sig with pass := some { value := l.sig.reg, pass := l.gen.pos.p, run := l.gen.runsCompleted + 1 } }
    gen := { l.gen with passesDone := l.gen.passesDone + 1 } }

/-- Whether passes remain in the run, after passes done has been increased (R47). -/
def passesRemain (l : LaneState) : Bool :=
  l.plan.passCount == 0 || decide (l.gen.passesDone.toNat < l.plan.passCount.toNat)

/-- The start of the next pass, after the plan's pause when it has one (R48). -/
def nextPass (l : LaneState) : LaneState :=
  l.modGen fun g =>
    { g with
      state := if l.plan.pause = 0 then .running else .pausing
      pos := passStart l.plan.first (g.pos.p + 1) l.plan.pause }

/-- The end of a pass (R47). -/
def endPass (s : State) (n : Lane) : State :=
  let t := s.modLane n latchPass
  if passesRemain (t.lane n) then t.modLane n nextPass else endRunByPasses t n

/-! ### Injection (R61 to R70) -/

/-- The bits that a burst flips: `len` bits from `bit` downward, none below 0 (R64). -/
def burstMask (bit : BitVec 6) (len : BitVec 7) : Word :=
  BitVec.ofNat 64 (2 ^ (bit.toNat + 1) - 2 ^ (bit.toNat + 1 - len.toNat))

/-- What an injection unit does with an eligible word (R62 to R65): the bits it flips and the unit after. -/
def injectEligible (u : InjectUnit) : Word × InjectUnit :=
  match u.setting with
  | .off => (0, u)
  | .single bit => (BitVec.ofNat 64 (2 ^ bit.toNat), { u with setting := .off })
  | .burst bit len => (burstMask bit len, { u with setting := .off })
  | .periodic bit period =>
    if u.periodCount.toNat + 1 = period.toNat then (BitVec.ofNat 64 (2 ^ bit.toNat), { u with periodCount := 0 })
    else (0, { u with periodCount := u.periodCount + 1 })

/-- The totals of an injection unit after k bits of a word have been flipped (R68). -/
def addInjected (u : InjectUnit) (k : Nat) : InjectUnit :=
  if k = 0 then u else { u with bits := saturatingAdd u.bits k, words := saturatingAdd u.words 1 }

/-- The injected field of a lane's running interval after k bits have been flipped in a word of generator g (R70). -/
def creditLane (g : Lane) (k : Nat) (l : LaneState) : LaneState :=
  if l.route.associate = some g && counting l then
    l.modAcc fun a => { a with interval := { a.interval with injected := saturatingAdd a.interval.injected k } }
  else l

/-- The credit of k flipped bits of generator g to every associated checker (R70). -/
def credit (s : State) (g : Lane) (k : Nat) : State := { s with lanes := s.lanes.map (creditLane g k) }

/-- A pattern word handed to lane n's injection unit (R57 step 2): the word it returns and what that leaves. -/
def inject (s : State) (n : Lane) (w : Word) (counted : Bool) : Word × State :=
  if counted then
    let r := injectEligible (s.lane n).inject
    let k := ones r.1
    (w ^^^ r.1, credit (s.modLane n fun l => { l with inject := addInjected r.2 k }) n k)
  else (w, s)

/-! ### The transmit signature (R71) -/

/-- One bit folded into a signature register (R71). -/
def foldBit (reg : BitVec 31) (d : Bool) : BitVec 31 :=
  (reg <<< 1) ||| BitVec.ofNat 31 (reg.getLsbD 30 ^^ reg.getLsbD 2 ^^ d).toNat

/-- The top `k` bits of a word still to be folded, the highest first (R71). -/
def foldBits (w : Word) : Nat → BitVec 31 → BitVec 31
  | 0, reg => reg
  | k + 1, reg => foldBits w k (foldBit reg (w.getLsbD k))

/-- A word folded into a signature register, bit 63 first (R71). -/
def foldWord (reg : BitVec 31) (w : Word) : BitVec 31 := foldBits w 64 reg

/-! ### One transmit slot (R57) -/

/-- A slot's pattern word in RUNNING: the word, whether it is counted, and where the generator stands after it
(`none` for a FREE-RUN word, whose position stays) with its FREE-RUN state (R46, R53). -/
structure PatternWord where
  word : Word
  counted : Bool
  step : Option Advance
  prbs : BitVec 32

/-- The pattern word of lane n's next slot in RUNNING (R46, R53). -/
def patternWord (s : State) (n : Lane) : Except Fault PatternWord :=
  let l := s.lane n
  match l.plan.mode with
  | .freeRun =>
    match freeRunSegment s l.plan.first with
    | .error f => .error f
    | .ok (o, invert, _, _) =>
      .ok { word := inverted invert (prbsRawWord o l.gen.prbs), counted := true, step := none,
            prbs := prbsAfterWord o l.gen.prbs }
  | .sequence =>
    match definedSegment s l.gen.pos.seg with
    | .error f => .error f
    | .ok sg =>
      .ok { word := formWord s.store sg l.plan.passStep l.gen.pos, counted := sg.counted,
            step := some (advance sg l.gen.pos), prbs := l.gen.prbs }

/-- The slot counted into words emitted (R51, R59). -/
def countSlot (s : State) (n : Lane) : State :=
  s.modLane n fun l => l.modGen fun g => { g with wordsEmitted := g.wordsEmitted + 1 }

/-- A word placed on transmit bus n (R57 step 4). -/
def placeWord (s : State) (n : Lane) (w : Word) : State := s.modLane n fun l => { l with txBus := w }

/-- Where a running generator goes after a slot: the word limit first (R51), else onward, or the pass end (R46, R47). -/
def afterPatternWord (s : State) (n : Lane) (step : Option Advance) : State :=
  if limitReached (s.lane n).plan (s.lane n).gen then wordLimitIfReached s n
  else
    match step with
    | none => s
    | some (.onward pos) => s.modLane n fun l => l.modGen fun g => { g with pos := pos }
    | some .passEnd => endPass s n

/-- The generator's side of a RUNNING slot: the word injected, folded and counted (R57 steps 1 to 3), the position
advanced. Answers the word that leaves. -/
def runningSlot (s : State) (n : Lane) (x : PatternWord) : Word × State :=
  let r := inject s n x.word x.counted
  let t := r.2.modLane n fun l =>
    { l with
      sig := { l.sig with reg := foldWord l.sig.reg r.1 }
      gen := { l.gen with prbs := x.prbs } }
  (r.1, afterPatternWord (countSlot t n) n x.step)

/-- The generator's side of a PAUSING slot: one pause word, then the word limit or the pause's end (R48, R51). -/
def pausingSlot (s : State) (n : Lane) : State :=
  let t := (countSlot s n).modLane n fun l =>
    l.modGen fun g => { g with pos := { g.pos with pause := BitVec.ofNat 16 (g.pos.pause.toNat - 1) } }
  (wordLimitIfReached t n).modLane n pauseEndIfDue

/-- The slot's word and the generator after it (R57 steps 1 to 3). -/
def fillSlot (s : State) (n : Lane) : Except Fault (Word × State) :=
  match (s.lane n).gen.state with
  | .stopped => .ok ((s.lane n).plan.idleWord, s)
  | .armed => .ok ((s.lane n).plan.idleWord, s)
  | .pausing => .ok ((s.lane n).plan.idleWord, pausingSlot s n)
  | .running =>
    match patternWord s n with
    | .error f => .error f
    | .ok x => .ok (runningSlot s n x)

/-- One transmit slot of lane n (R57): the word formed, then placed on the bus and offered to the looped checkers. -/
def transmit (s : State) (n : Lane) : Except Fault State :=
  match fillSlot s n with
  | .error f => .error f
  | .ok (w, t) => deliver (.loop n) w (placeWord t n w)

end Sys2Proof.Machine
end

