-- ==== Sys2Proof/Machine/LaneCommands.lean ====
section
/-!
DEFINITION. Commands on generators, injection units and transmit signatures (R39 to R41, R55, R60, R66 to R69, R73, R74).
-/

namespace Sys2Proof.Machine

/-- Lane n armed by LANE_START (R39 steps 2 to 6). -/
def armLane (l : LaneState) : LaneState :=
  { l with
    gen := { l.gen with
      state := .armed
      pendingTrigger := false
      pos := passStart l.plan.first 0 0
      wordsEmitted := 0
      passesDone := 0
      runsCompleted := 0 }
    sig := { reg := 0, pass := none } }

/-- LANE_START taken (R39): the reach set marked, the lane's run history cleared, the generator armed. -/
def startLane (s : State) (n : Lane) : State := (s.mark (s.lane n).plan.reach (.generator n)).modLane n armLane

/-- LANE_START (R39, R40). -/
def execLaneStart (f : Select) (args : List Byte) (s : State) : Host.Outcome State Fault Refusal :=
  laneCommand f 0x28 true args (s := s) fun n t =>
    if (t.lane n).gen.state = .stopped ∧ (t.lane n).plan.valid = true then
      .done .ok [laneCode n, genStateCode .armed] (startLane t n)
    else .refuse .state

/-- The code of a trigger outcome (Table 11-3). -/
def triggerOutcomeCode : TriggerOutcome → Byte
  | .runStarted => 0
  | .pendingSet => 1
  | .pendingHeld => 2

/-- LANE_TRIGGER (R41). -/
def execLaneTrigger (f : Select) (args : List Byte) (s : State) : Host.Outcome State Fault Refusal :=
  laneCommand f 0x29 true args (s := s) fun n t =>
    if (t.lane n).gen.state = .stopped then .refuse .state
    else .done .ok [laneCode n, triggerOutcomeCode (takeTrigger t n).1] (takeTrigger t n).2

/-- LANE_HALT taken outside STOPPED (R55): marks removed, the pending trigger discarded, the generator stopped. -/
def haltLane (s : State) (n : Lane) : State :=
  (s.unmark (.generator n)).modLane n fun l => l.modGen fun g => { g with state := .stopped, pendingTrigger := false }

/-- LANE_HALT (R55). -/
def execLaneHalt (f : Select) (args : List Byte) (s : State) : Host.Outcome State Fault Refusal :=
  laneCommand f 0x2A true args (s := s) fun n t =>
    .done .ok [laneCode n, genStateCode (t.lane n).gen.state]
      (if (t.lane n).gen.state = .stopped then t else haltLane t n)

/-- The fields of a LANE_STATUS reply (R60). -/
def laneStatusFields (n : Lane) (l : LaneState) : List Byte :=
  [laneCode n, genStateCode l.gen.state, yesNo l.gen.pendingTrigger] ++ posBytes l.gen.pos ++ beOf 2 l.gen.pos.pause ++
    beOf 6 l.gen.wordsEmitted ++ beOf 4 l.gen.passesDone ++ beOf 4 l.gen.runsCompleted ++ beOf 6 l.inject.bits ++
    beOf 5 l.inject.words

/-- LANE_STATUS (R60). -/
def execLaneStatus (f : Select) (args : List Byte) (s : State) : Host.Outcome State Fault Refusal :=
  laneCommand f 0x2B false args (s := s) fun n t => .done .ok (laneStatusFields n (t.lane n)) t

/-- A new injection setting (R66): the old one replaced, the period count 0, the totals kept. -/
def setInjection (x : Injection) (l : LaneState) : LaneState :=
  { l with inject := { l.inject with setting := x, periodCount := 0 } }

/-- INJECT_SET (R66). -/
def execInjectSet (f : Select) (args : List Byte) (s : State) : Host.Outcome State Fault Refusal :=
  portCommand f 0x30 args (s := s) fun t =>
    if args.length = 7 then
      match laneOfByte (byteAt args 0),
        injectionOfBytes (byteAt args 1) (byteAt args 2) (byteAt args 3) (fieldAt args 4 3) with
      | some n, some x =>
        if heldByOther t f.port (laneResource n) then .refuse .reserved
        else
          .done .ok (laneCode n :: injectionBytes x (freeBytes t injectionFree))
            ((t.modLane n (setInjection x)).useFree injectionFree)
      | _, _ => .refuse .range
    else .refuse .frame

/-- The injected totals in a reply (R69). -/
def injectTotalsBytes (u : InjectUnit) : List Byte := beOf 6 u.bits ++ beOf 5 u.words

/-- INJECT_READ (R69). -/
def execInjectRead (f : Select) (args : List Byte) (s : State) : Host.Outcome State Fault Refusal :=
  laneCommand f 0x31 false args (s := s) fun n t =>
    let u := (t.lane n).inject
    .done .ok
      (laneCode n :: injectionBytes u.setting (freeBytes t injectionFree) ++ beOf 3 u.periodCount ++
        injectTotalsBytes u)
      (t.useFree injectionFree)

/-- INJECT_TOTALS_CLEAR (R69). -/
def execInjectTotalsClear (f : Select) (args : List Byte) (s : State) : Host.Outcome State Fault Refusal :=
  laneCommand f 0x32 true args (s := s) fun n t =>
    .done .ok (laneCode n :: injectTotalsBytes (t.lane n).inject)
      (t.modLane n fun l => { l with inject := { l.inject with bits := 0, words := 0 } })

/-- SIG_CLEAR (R73). -/
def execSigClear (f : Select) (args : List Byte) (s : State) : Host.Outcome State Fault Refusal :=
  laneCommand f 0x33 true args (s := s) fun n t =>
    .done .ok [laneCode n] (t.modLane n fun l => { l with sig := { reg := 0, pass := none } })

/-- The fields of a SIG_READ reply (R74): the register, then the pass signature behind a presence byte, 0 when
absent. -/
def sigFields (g : Signature) : List Byte :=
  beOf 4 g.reg ++
    match g.pass with
    | none => yesNo false :: be 12 0
    | some q => yesNo true :: beOf 4 q.value ++ beOf 4 q.pass ++ beOf 4 q.run

/-- SIG_READ (R74); its reply names no lane (log 13). -/
def execSigRead (f : Select) (args : List Byte) (s : State) : Host.Outcome State Fault Refusal :=
  laneCommand f 0x34 false args (s := s) fun n t => .done .ok (sigFields (t.lane n).sig) t

end Sys2Proof.Machine
end

