-- ==== Sys2Proof/Machine/Lines.lean ====
section
/-!
DEFINITION. What reaches the part by its lines, buses and timebase, and the events it takes itself
(R42, R48, R51, R57, R76, R119, R123, R124, R127, R129, R130, R131, R173, R178).
-/

namespace Sys2Proof.Machine

/-- DEVICE_RESET (R178): RESET_N goes low, or the part is powered up. No block raises an event but RESTARTED, which the
reset values of the views hold. -/
def execDeviceReset (s : State) : Host.Outcome State Fault Refusal := .next (deviceResetState s .held)

/-- RESET_N_RETURNS_HIGH (R178): the device reset ends; select activity counts as a frame when it begins 1 ms or more
after (log 2). A line that is already high does not return high. -/
def execResetNReturnsHigh (s : State) : Host.Outcome State Fault Refusal := .next { s with resetPhase := .released }

/-- TRIG_EDGE (R42): the line stands at `level`; a change of level that matches the plan's trigger acts as
LANE_TRIGGER does, and any other is ignored. -/
def execTrigEdge (n : Lane) (level : Level) (s : State) : Host.Outcome State Fault Refusal :=
  if (s.lane n).trigLine = level then .next s
  else
    let t := s.modLane n fun l => { l with trigLine := level }
    .next
      (if (t.lane n).gen.state ≠ .stopped ∧ (t.lane n).plan.trigger.matchesEdge level = true then (takeTrigger t n).2
      else t)

/-- A lane's timer at a GATE edge (R119, R123, R129): a matching edge starts a waiting timer; under a LEVEL trigger a
level pause begins or ends, and its end may meet the UNAVAILABLE condition (R132). -/
def gateEdgeTaken (level : Level) (l : LaneState) : LaneState :=
  let m : LaneState := { l with gateLine := level }
  if m.timer.state = .wait ∧ m.timer.config.trigger.matchesEdge level = true then startInterval m else refreshMark m

/-- GATE_EDGE (R119): the line stands at `level`; a change of level is an edge. -/
def execGateEdge (n : Lane) (level : Level) (s : State) : Host.Outcome State Fault Refusal :=
  .next (if (s.lane n).gateLine = level then s else s.modLane n (gateEdgeTaken level))

/-- TRANSMIT_SLOT (R57). -/
def execTransmitSlot (n : Lane) (s : State) : Host.Outcome State Fault Refusal := walkOutcome (transmit s n)

/-- PAUSE_END (R48): with no pause words remaining the generator returns to RUNNING. TRANSMIT_SLOT takes it in the slot
of the last pause word (log 6). -/
def execPauseEnd (n : Lane) (s : State) : Host.Outcome State Fault Refusal := .next (s.modLane n pauseEndIfDue)

/-- WORD_LIMIT_REACHED (R51). TRANSMIT_SLOT takes it in the slot that reaches the limit (log 6). -/
def execWordLimitReached (n : Lane) (s : State) : Host.Outcome State Fault Refusal := .next (wordLimitIfReached s n)

/-- RECEIVE_WORD (R76): a receive slot of bus m delivers its word to every checker whose route names EXTERNAL(m). -/
def execReceiveWord (m : Lane) (w : Word) (s : State) : Host.Outcome State Fault Refusal :=
  walkOutcome (deliver (.external m) w s)

/-- TICK (R127, R173): a unit to every TIME-unit timer that counts, then a tick to both hold-off timers. -/
def execTick (s : State) : Host.Outcome State Fault Refusal :=
  let t := tickTimer (tickTimer (tickTimer (tickTimer s 0) 1) 2) 3
  .next (t.modPorts fun v => v.setHoldoff (tickHoldoff v.view.holdoff))

/-- SLICE_CLOSE (R131). A tick or an accumulated word takes it with the unit that fills the slice (log 6). -/
def execSliceClose (n : Lane) (s : State) : Host.Outcome State Fault Refusal := .next (s.modLane n sliceCloseIfDue)

/-- INTERVAL_EXPIRY (R130). A tick or an accumulated word takes it with the unit that reaches L (log 6). -/
def execIntervalExpiry (n : Lane) (s : State) : Host.Outcome State Fault Refusal := .next (intervalExpiryIfDue s n)

/-- CHAIN_START (R124): a waiting follower takes the close that its source has offered. -/
def execChainStart (n : Lane) (s : State) : Host.Outcome State Fault Refusal := .next (s.modLane n chainStartIfDue)

/-- HOLDOFF_EXPIRY (R173). TICK takes it with the last tick (log 6). -/
def execHoldoffExpiry (p : Port) (s : State) : Host.Outcome State Fault Refusal :=
  .next (s.modPort p fun v => v.setHoldoff (holdoffExpiryIfDue v.view.holdoff))

end Sys2Proof.Machine
end

