-- ==== Sys2Proof/Machine/PlanCommands.lean ====
section
/-!
DEFINITION. Validation of lane plans and the plan commands (R26 to R33).
-/

namespace Sys2Proof.Machine

/-- A set of segment indices with one added. -/
def addSegment (set : BitVec 64) (i : Fin 64) : BitVec 64 := set ||| BitVec.ofNat 64 (2 ^ i.val)

/-- The reach-set walk of R26 from segment `cur`, with the set so far: the set at the stop, and the undefined segment at
which it stopped, if it did. Every step but the last adds an index, so 64 steps suffice. -/
def reachWalk (record : Fin 64 → Option Segment) : Nat → Fin 64 → BitVec 64 → BitVec 64 × Option (Fin 64)
  | 0, _, set => (set, none)
  | fuel + 1, cur, set =>
    let grown := addSegment set cur
    match record cur with
    | none => (grown, some cur)
    | some sg =>
      match sg.next with
      | none => (grown, none)
      | some t => if grown.getLsbD t.val then (grown, none) else reachWalk record fuel t grown

/-- Whether a segment kind can serve as an anchor (R27 test 3). -/
def SegKind.anchors : SegKind → Bool
  | .prbs .. => true
  | .list .. => true
  | _ => false

/-- Whether a segment is of kind PRBS (R28). -/
def SegKind.isPrbs : SegKind → Bool
  | .prbs .. => true
  | _ => false

/-- The outcome of a validation: the reach set, the verdict and the verdict segment (R26 to R29). -/
structure Validation where
  reach : BitVec 64
  verdict : Verdict
  seg : Fin 64

/-- The tests of R27 on a SEQUENCE plan whose walk gave `walk`. -/
def validateSequence (record : Fin 64 → Option Segment) (pl : Plan) (walk : BitVec 64 × Option (Fin 64)) :
    Validation :=
  match walk.2 with
  | some u => { reach := walk.1, verdict := .undefined, seg := u }
  | none =>
    if walk.1.getLsbD pl.anchor.val then
      match record pl.anchor with
      | none => { reach := walk.1, verdict := .undefined, seg := pl.anchor }
      | some sg =>
        if sg.kind.anchors then
          if matchMask sg = 0 then { reach := walk.1, verdict := .anchorMask, seg := pl.anchor }
          else { reach := walk.1, verdict := .valid, seg := 0 }
        else { reach := walk.1, verdict := .anchorKind, seg := pl.anchor }
    else { reach := walk.1, verdict := .anchorUnreached, seg := pl.anchor }

/-- The tests of R28 on a FREE-RUN plan, whose reach set is segment first alone (R26). -/
def validateFreeRun (record : Fin 64 → Option Segment) (pl : Plan) : Validation :=
  match record pl.first with
  | none => { reach := addSegment 0 pl.first, verdict := .undefined, seg := pl.first }
  | some sg =>
    if sg.kind.isPrbs then { reach := addSegment 0 pl.first, verdict := .valid, seg := 0 }
    else { reach := addSegment 0 pl.first, verdict := .notPrbs, seg := pl.first }

/-- A plan validated against the Segment Table as it stands (R26 to R29). -/
def validation (record : Fin 64 → Option Segment) (pl : Plan) : Validation :=
  match pl.mode with
  | .sequence => validateSequence record pl (reachWalk record 64 pl.first 0)
  | .freeRun => validateFreeRun record pl

/-- A plan with the outcome of its validation recorded (R29). -/
def validated (record : Fin 64 → Option Segment) (pl : Plan) : Plan :=
  let v := validation record pl
  { pl with valid := v.verdict == .valid, reach := v.reach, verdict := v.verdict, verdictSeg := v.seg }

/-- The reply of PLAN_SET and PLAN_CHECK: lane, VALID, verdict, verdict segment (R30, R31). -/
def verdictFields (n : Lane) (pl : Plan) : List Byte :=
  [laneCode n, yesNo pl.valid, verdictCode pl.verdict, segIndexCode pl.verdictSeg]

/-- Lane n's plan replaced. -/
def State.setPlan (s : State) (n : Lane) (pl : Plan) : State := s.modLane n fun l => { l with plan := pl }

/-- A plan stored for lane n and validated (R30, R31). -/
def storePlan (s : State) (n : Lane) (pl : Plan) : Answer :=
  .done .ok (verdictFields n (validated s.record pl)) (s.setPlan n (validated s.record pl))

/-- PLAN_SET (R30). -/
def execPlanSet (f : Select) (args : List Byte) (s : State) : Host.Outcome State Fault Refusal :=
  portCommand f 0x20 args (s := s) fun t =>
    if args.length = 23 then
      match laneOfByte (byteAt args 0) with
      | none => .refuse .range
      | some n =>
        match planOfBytes (t.lane n).plan (args.drop 1) with
        | none => .refuse .range
        | some pl =>
          if heldByOther t f.port (laneResource n) then .refuse .reserved
          else if planInUse t n then .refuse .busy
          else storePlan t n pl
    else .refuse .frame

/-- PLAN_CHECK (R31). -/
def execPlanCheck (f : Select) (args : List Byte) (s : State) : Host.Outcome State Fault Refusal :=
  laneCommand f 0x21 true args (s := s) fun n t =>
    if planInUse t n then .refuse .busy else storePlan t n (t.lane n).plan

/-- PLAN_READ (R33, R180). -/
def execPlanRead (f : Select) (args : List Byte) (s : State) : Host.Outcome State Fault Refusal :=
  laneCommand f 0x22 false args (s := s) fun n t =>
    let pl := (t.lane n).plan
    .done .ok
      (laneCode n :: planBytes pl ++ [yesNo pl.valid, verdictCode pl.verdict, segIndexCode pl.verdictSeg] ++
        beOf 8 pl.reach) t

end Sys2Proof.Machine
end

