-- ==== Sys2Proof/Machine/PortCommands.lean ====
section
/-!
DEFINITION. Frames without a block of their own, the Reservation Table and the event views (chapter 10).
-/

namespace Sys2Proof.Machine

/-- NOP (R161): any length of 1 byte or more; the last response is shifted out and stays. -/
def execNop (f : Select) (args : List Byte) (s : State) : Host.Outcome State Fault Refusal :=
  frameEnds f s fun u => .next (u.shifted f.port (1 + args.length))

/-- IDENTIFY (R164). The widths of the counts are the whole bytes that their values need (log 10). -/
def execIdentify (f : Select) (args : List Byte) (s : State) : Host.Outcome State Fault Refusal :=
  bareCommand f 0x02 args (s := s) fun t =>
    .done .ok
      (be 2 Config.partCode ++ be 1 Config.revision ++ be 1 Config.laneCount ++ be 1 Config.segmentCount ++
        be 2 Config.storeSize ++ [portCode f.port]) t

/-- The result cursor that PORT_RESET gives a port on a ring: the oldest held record, or next_seq (R158). -/
def oldestCursor (r : Ring) : ResultCursor :=
  match r.records.head? with
  | some old => { next := old.sequence, skipped := 0 }
  | none => { next := r.nextSeq, skipped := 0 }

/-- A port's own state after PORT_RESET (R177). -/
def resetPort (s : State) (v : PortState) : PortState :=
  { v with
    response := Reset.response
    segCursor := 0
    wordCursor := 0
    results := Vector.ofFn fun n => oldestCursor (s.lane n).ring
    view := { pending := 0, enable := 0, length := v.view.length, holdoff := stoppedHoldoff } }

/-- The Reservation Table with every resource of a port released (R177). -/
def releaseAll (s : State) (p : Port) : State :=
  { s with holders := s.holders.map fun h => if h = some p then none else h }

/-- PORT_RESET (R177). Taken, it leaves the response buffer at NONE; a frame of another length is refused with FRAME
and resets nothing. -/
def execPortReset (f : Select) (args : List Byte) (s : State) : Host.Outcome State Fault Refusal :=
  frameEnds f s fun u =>
    let t := u.shifted f.port (1 + args.length)
    if args = [] then .next ((releaseAll t f.port).modPort f.port (resetPort t))
    else settleAnswer f.port 0x03 t (.refuse .frame)

/-- RESERVE (R166). -/
def execReserve (f : Select) (args : List Byte) (s : State) : Host.Outcome State Fault Refusal :=
  portCommand f 0x04 args (s := s) fun t =>
    match args with
    | [b] =>
      match resourceOfByte b with
      | none => .refuse .range
      | some r =>
        if heldByOther t f.port r then .refuse .reserved
        else .done .ok [b, holderCode (some f.port)] (t.setHolder r (some f.port))
    | _ => .refuse .frame

/-- RELEASE (R167). -/
def execRelease (f : Select) (args : List Byte) (s : State) : Host.Outcome State Fault Refusal :=
  portCommand f 0x05 args (s := s) fun t =>
    match args with
    | [b] =>
      match resourceOfByte b with
      | none => .refuse .range
      | some r => if t.holder r = some f.port then .done .ok [b] (t.setHolder r none) else .refuse .state
    | _ => .refuse .frame

/-- RESERVATION_READ (R167). -/
def execReservationRead (f : Select) (args : List Byte) (s : State) : Host.Outcome State Fault Refusal :=
  bareCommand f 0x06 args (s := s) fun t => .done .ok (t.holders.toList.map holderCode) t

/-- The fields of an EVENT_READ reply (R175). No table codes a line's level: 1 for asserted and 0 for released is the
model's (DESIGN CHOICE, log 12). -/
def eventReadFields (v : EventView) : List Byte :=
  eventSetBytes v.pending ++ eventSetBytes v.enable ++
    [v.length, yesNo v.holdoff.running, v.holdoff.remaining, yesNo (alertAsserted v)]

/-- EVENT_READ (R175). -/
def execEventRead (f : Select) (args : List Byte) (s : State) : Host.Outcome State Fault Refusal :=
  bareCommand f 0x08 args (s := s) fun t => .done .ok (eventReadFields (t.port f.port).view) t

/-- A view after EVENT_CLEAR has cleared a set of flags (R172). -/
def clearEvents (v : EventView) (e : EventSet) : EventView :=
  { v with pending := v.pending &&& ~~~e, holdoff := startHoldoff v.length }

/-- EVENT_CLEAR (R172). -/
def execEventClear (f : Select) (args : List Byte) (s : State) : Host.Outcome State Fault Refusal :=
  portCommand f 0x09 args (s := s) fun t =>
    if args.length = 4 then
      match eventSetOfBytes args with
      | none => .refuse .range
      | some e =>
        .done .ok (eventSetBytes (clearEvents (t.port f.port).view e).pending)
          (t.modPort f.port fun v => { v with view := clearEvents v.view e })
    else .refuse .frame

/-- EVENT_ENABLE (R174). -/
def execEventEnable (f : Select) (args : List Byte) (s : State) : Host.Outcome State Fault Refusal :=
  portCommand f 0x0A args (s := s) fun t =>
    if args.length = 4 then
      match eventSetOfBytes args with
      | none => .refuse .range
      | some e => .done .ok (eventSetBytes e) (t.modPort f.port fun v => { v with view := { v.view with enable := e } })
    else .refuse .frame

/-- HOLDOFF_SET (R173). -/
def execHoldoffSet (f : Select) (args : List Byte) (s : State) : Host.Outcome State Fault Refusal :=
  portCommand f 0x0B args (s := s) fun t =>
    match args with
    | [b] => .done .ok [b] (t.modPort f.port fun v => { v with view := { v.view with length := b } })
    | _ => .refuse .frame

/-- UNKNOWN_CODE_FRAME (R162 check 1, R163): UNKNOWN whatever its length, and no event. A code that names a command
makes the term no such frame (log 16). -/
def execUnknownCodeFrame (f : Select) (code : Byte) (args : List Byte) (s : State) : Host.Outcome State Fault Refusal :=
  if codeNamesCommand code then .refused .codeNamesACommand
  else portCommand f code args (fun _ => .refuse .unknown) s

/-- EMPTY_FRAME (R160): nothing is taken, and nothing changes on either port. Its end is the end of a frame, before
which the port's earlier commands have their whole effect (R183). -/
def execEmptyFrame (f : Select) (s : State) : Host.Outcome State Fault Refusal := frameEnds f s .next

end Sys2Proof.Machine
end

