-- ==== Sys2Proof/Machine/ResultCommands.lean ====
section
/-!
DEFINITION. Commands on result rings (R155 to R157).
-/

namespace Sys2Proof.Machine

/-- The number of records that a port has still to read on a ring (R151). -/
def unread (r : Ring) (c : ResultCursor) : BitVec 32 := r.nextSeq - c.next

/-- The held record that a cursor names (R151). -/
def namedRecord (r : Ring) (c : ResultCursor) : Option IntervalRecord :=
  r.records.find? fun x => x.sequence == c.next

/-- A port's cursor after it has read the record it named (R155). -/
def readCursor (c : ResultCursor) : ResultCursor := { next := c.next + 1, skipped := 0 }

/-- RESULT_READ (R155). -/
def execResultRead (f : Select) (args : List Byte) (s : State) : Host.Outcome State Fault Refusal :=
  laneCommand f 0x50 false args (s := s) fun n t =>
    let ring := (t.lane n).ring
    let c := (t.port f.port).results[n]
    if c.next = ring.nextSeq then .done .empty (laneCode n :: beOf 2 c.skipped ++ [0]) t
    else
      match namedRecord ring c with
      | none => .stuck .lostRecord
      | some r =>
        .done .ok (laneCode n :: beOf 2 c.skipped ++ beOf 1 (unread ring (readCursor c)) ++ recordBytes r)
          (t.modPort f.port fun v => v.modResult n readCursor)

/-- RESULT_PEEK (R156). -/
def execResultPeek (f : Select) (args : List Byte) (s : State) : Host.Outcome State Fault Refusal :=
  laneCommand f 0x51 false args (s := s) fun n t =>
    let ring := (t.lane n).ring
    match ring.records.getLast? with
    | none => .done .empty (laneCode n :: be 1 0 ++ beOf 4 ring.nextSeq) t
    | some r => .done .ok (laneCode n :: be 1 ring.records.length ++ beOf 4 ring.nextSeq ++ recordBytes r) t

/-- A port's cursor on a ring that RESULT_CLEAR empties: every unread record charged, the cursor at next_seq (R157). -/
def chargeCleared (r : Ring) (c : ResultCursor) : ResultCursor :=
  { next := r.nextSeq, skipped := saturatingAdd c.skipped (unread r c).toNat }

/-- Ring n emptied (R157). -/
def clearRing (s : State) (n : Lane) : State :=
  (s.modLane n fun l => { l with ring := { l.ring with records := [] } }).modPorts fun v =>
    v.modResult n (chargeCleared (s.lane n).ring)

/-- RESULT_CLEAR (R157). -/
def execResultClear (f : Select) (args : List Byte) (s : State) : Host.Outcome State Fault Refusal :=
  laneCommand f 0x52 true args (s := s) fun n t =>
    .done .ok (laneCode n :: be 1 (t.lane n).ring.records.length) (clearRing t n)

end Sys2Proof.Machine
end

