-- ==== Sys2Proof/Machine/SegmentCommands.lean ====
section
/-!
DEFINITION. Commands on the Segment Table and the Pattern Word Store (R14 to R22).
-/

namespace Sys2Proof.Machine

/-- A port's segment cursor replaced. -/
def PortState.setSegCursor (v : PortState) (c : Fin 65) : PortState := { v with segCursor := c }

/-- A port's word cursor replaced. -/
def PortState.setWordCursor (v : PortState) (c : Fin 4097) : PortState := { v with wordCursor := c }

/-- The segment that a segment cursor names; none at 64 (R14). -/
def cursorSegment (c : Fin 65) : Option (Fin 64) := if h : c.val < 64 then some ⟨c.val, h⟩ else none

/-- The cursor after the segment it named has been written or read (R14). -/
def afterSegment (i : Fin 64) : Fin 65 := ⟨i.val + 1, by omega⟩

/-- SEG_SELECT (R15). -/
def execSegSelect (f : Select) (args : List Byte) (s : State) : Host.Outcome State Fault Refusal :=
  portCommand f 0x10 args (s := s) fun t =>
    match args with
    | [b] =>
      match segIndexOfByte b with
      | none => .refuse .range
      | some i => .done .ok [b] (t.modPort f.port fun v => v.setSegCursor i.castSucc)
    | _ => .refuse .frame

/-- A segment record written (R16): defined with the stored fields, the use set kept, every plan that reaches it
invalidated (R34). -/
def writeSegment (s : State) (i : Fin 64) (sg : Segment) : State :=
  invalidate (s.setSeg i { s.seg i with record := some sg }) i

/-- SEG_WRITE (R16). -/
def execSegWrite (f : Select) (args : List Byte) (s : State) : Host.Outcome State Fault Refusal :=
  portCommand f 0x11 args (s := s) fun t =>
    if args.length = 31 then
      match cursorSegment (t.port f.port).segCursor, segmentOfBytes args with
      | some i, some sg =>
        if heldByOther t f.port (segResource i) then .refuse .reserved
        else if (t.seg i).useSet ≠ 0 then .refuse .busy
        else
          .done .ok (segIndexCode i :: segmentBytes sg)
            ((writeSegment t i sg).modPort f.port fun v => v.setSegCursor (afterSegment i))
      | _, _ => .refuse .range
    else .refuse .frame

/-- SEG_READ (R17). -/
def execSegRead (f : Select) (args : List Byte) (s : State) : Host.Outcome State Fault Refusal :=
  bareCommand f 0x12 args (s := s) fun t =>
    match cursorSegment (t.port f.port).segCursor with
    | none => .refuse .range
    | some i =>
      .done .ok (segIndexCode i :: slotBytes (t.seg i))
        (t.modPort f.port fun v => v.setSegCursor (afterSegment i))

/-- A segment made undefined (R18), every plan that reaches it invalidated (R34). -/
def clearSegment (s : State) (i : Fin 64) : State := invalidate (s.setSeg i { s.seg i with record := none }) i

/-- SEG_CLEAR (R18). -/
def execSegClear (f : Select) (args : List Byte) (s : State) : Host.Outcome State Fault Refusal :=
  portCommand f 0x13 args (s := s) fun t =>
    match args with
    | [b] =>
      match segIndexOfByte b with
      | none => .refuse .range
      | some i =>
        if heldByOther t f.port (segResource i) then .refuse .reserved
        else if (t.seg i).useSet ≠ 0 then .refuse .busy
        else .done .ok [b] (clearSegment t i)
    | _ => .refuse .frame

/-- WORD_SELECT (R19). -/
def execWordSelect (f : Select) (args : List Byte) (s : State) : Host.Outcome State Fault Refusal :=
  portCommand f 0x14 args (s := s) fun t =>
    if args.length = 2 then
      match addressOfBytes args with
      | none => .refuse .range
      | some a => .done .ok args (t.modPort f.port fun v => v.setWordCursor a.castSucc)
    else .refuse .frame

/-- How many of `n` words fit from a word cursor (R20, R21). -/
def wordsFitting (c : Fin 4097) (n : Nat) : Nat := min n (4096 - c.val)

/-- The word cursor moved over `m` words (R14). -/
def advanceWordCursor (c : Fin 4097) (m : Nat) : Fin 4097 := ⟨min (c.val + m) 4096, by omega⟩

/-- Whether a store address from `c` to `c + m − 1` lies in a word block that the other port holds (R20). -/
def wordsReserved (s : State) (p : Port) (c : Fin 4097) (m : Nat) : Bool :=
  (List.range m).any fun k =>
    if h : c.val + k < 4096 then heldByOther s p (wordResource ⟨c.val + k, h⟩) else false

/-- A count and a word cursor in a reply: 1 byte and 2 bytes (R179). -/
def wordReply (m : Nat) (c : Fin 4097) : List Byte := be 1 m ++ be 2 c.val

/-- WORD_WRITE (R20): the frame carries the count n and n words; the words past the store's end are ignored. -/
def execWordWrite (f : Select) (args : List Byte) (s : State) : Host.Outcome State Fault Refusal :=
  portCommand f 0x15 args (s := s) fun t =>
    match args with
    | [] => .refuse .frame
    | n :: data =>
      if data.length = 8 * n.toNat then
        let c := (t.port f.port).wordCursor
        let m := wordsFitting c n.toNat
        if wordsReserved t f.port c m then .refuse .reserved
        else
          .done .ok (wordReply m (advanceWordCursor c m))
            ({ t with store := storeWriteMany t.store c.val (wordsOfBytes m data) }.modPort f.port fun v =>
              v.setWordCursor (advanceWordCursor c m))
      else .refuse .frame

/-- WORD_READ (R21). -/
def execWordRead (f : Select) (args : List Byte) (s : State) : Host.Outcome State Fault Refusal :=
  portCommand f 0x16 args (s := s) fun t =>
    match args with
    | [n] =>
      let c := (t.port f.port).wordCursor
      let m := wordsFitting c n.toNat
      .done (if n ≠ 0 ∧ m = 0 then .empty else .ok)
        (wordReply m (advanceWordCursor c m) ++ bytesOfWords (storeReadMany t.store c.val m))
        (t.modPort f.port fun v => v.setWordCursor (advanceWordCursor c m))
    | _ => .refuse .frame

end Sys2Proof.Machine
end

