-- ==== Sys2Proof/Machine/Dispatch.lean ====
section
/-!
DEFINITION. One arm per command of the opcode table, each one call of the command's meaning.
-/

namespace Sys2Proof.Machine

/-- The effect of a command on everything but the queue. -/
def exec (i : Instr) (s : State) : Host.Outcome State Fault Refusal :=
  match i with
  | .nop p args => Sys2Proof.Machine.execNop p args s
  | .identify p args => Sys2Proof.Machine.execIdentify p args s
  | .portReset p args => Sys2Proof.Machine.execPortReset p args s
  | .reserve p args => Sys2Proof.Machine.execReserve p args s
  | .release p args => Sys2Proof.Machine.execRelease p args s
  | .reservationRead p args => Sys2Proof.Machine.execReservationRead p args s
  | .eventRead p args => Sys2Proof.Machine.execEventRead p args s
  | .eventClear p args => Sys2Proof.Machine.execEventClear p args s
  | .eventEnable p args => Sys2Proof.Machine.execEventEnable p args s
  | .holdoffSet p args => Sys2Proof.Machine.execHoldoffSet p args s
  | .segSelect p args => Sys2Proof.Machine.execSegSelect p args s
  | .segWrite p args => Sys2Proof.Machine.execSegWrite p args s
  | .segRead p args => Sys2Proof.Machine.execSegRead p args s
  | .segClear p args => Sys2Proof.Machine.execSegClear p args s
  | .wordSelect p args => Sys2Proof.Machine.execWordSelect p args s
  | .wordWrite p args => Sys2Proof.Machine.execWordWrite p args s
  | .wordRead p args => Sys2Proof.Machine.execWordRead p args s
  | .planSet p args => Sys2Proof.Machine.execPlanSet p args s
  | .planCheck p args => Sys2Proof.Machine.execPlanCheck p args s
  | .planRead p args => Sys2Proof.Machine.execPlanRead p args s
  | .laneStart p args => Sys2Proof.Machine.execLaneStart p args s
  | .laneTrigger p args => Sys2Proof.Machine.execLaneTrigger p args s
  | .laneHalt p args => Sys2Proof.Machine.execLaneHalt p args s
  | .laneStatus p args => Sys2Proof.Machine.execLaneStatus p args s
  | .injectSet p args => Sys2Proof.Machine.execInjectSet p args s
  | .injectRead p args => Sys2Proof.Machine.execInjectRead p args s
  | .injectTotalsClear p args => Sys2Proof.Machine.execInjectTotalsClear p args s
  | .sigClear p args => Sys2Proof.Machine.execSigClear p args s
  | .sigRead p args => Sys2Proof.Machine.execSigRead p args s
  | .routeSet p args => Sys2Proof.Machine.execRouteSet p args s
  | .checkConfig p args => Sys2Proof.Machine.execCheckConfig p args s
  | .checkStart p args => Sys2Proof.Machine.execCheckStart p args s
  | .checkStop p args => Sys2Proof.Machine.execCheckStop p args s
  | .checkStatus p args => Sys2Proof.Machine.execCheckStatus p args s
  | .totalsRead p args => Sys2Proof.Machine.execTotalsRead p args s
  | .totalsClear p args => Sys2Proof.Machine.execTotalsClear p args s
  | .gateConfig p args => Sys2Proof.Machine.execGateConfig p args s
  | .gateArm p args => Sys2Proof.Machine.execGateArm p args s
  | .gateTrigger p args => Sys2Proof.Machine.execGateTrigger p args s
  | .gateStop p args => Sys2Proof.Machine.execGateStop p args s
  | .gateStatus p args => Sys2Proof.Machine.execGateStatus p args s
  | .resultRead p args => Sys2Proof.Machine.execResultRead p args s
  | .resultPeek p args => Sys2Proof.Machine.execResultPeek p args s
  | .resultClear p args => Sys2Proof.Machine.execResultClear p args s
  | .unknownCodeFrame p code args => Sys2Proof.Machine.execUnknownCodeFrame p code args s
  | .emptyFrame p => Sys2Proof.Machine.execEmptyFrame p s
  | .deviceReset => Sys2Proof.Machine.execDeviceReset s
  | .trigEdge n level => Sys2Proof.Machine.execTrigEdge n level s
  | .gateEdge n level => Sys2Proof.Machine.execGateEdge n level s
  | .transmitSlot n => Sys2Proof.Machine.execTransmitSlot n s
  | .pauseEnd n => Sys2Proof.Machine.execPauseEnd n s
  | .wordLimitReached n => Sys2Proof.Machine.execWordLimitReached n s
  | .receiveWord m w => Sys2Proof.Machine.execReceiveWord m w s
  | .tick => Sys2Proof.Machine.execTick s
  | .sliceClose n => Sys2Proof.Machine.execSliceClose n s
  | .intervalExpiry n => Sys2Proof.Machine.execIntervalExpiry n s
  | .chainStart n => Sys2Proof.Machine.execChainStart n s
  | .holdoffExpiry p => Sys2Proof.Machine.execHoldoffExpiry p s
  | .resetNReturnsHigh => Sys2Proof.Machine.execResetNReturnsHigh s

end Sys2Proof.Machine
end

