-- ==== Sys2Proof/WellFormed.lean ====
section
/-!
DEFINITION. Which terms of `Instr` stand for something the part can receive.
-/

namespace Sys2Proof

/-- An UNKNOWN_CODE_FRAME's code names no command (R162 check 1): a frame whose code names one is that command. Every
other term is well formed, since frames of every length and content reach the part (R163). -/
def Instr.WellFormed : Instr → Bool
  | .unknownCodeFrame _ code _ => !codeNamesCommand code
  | _ => true

end Sys2Proof
end

