-- ==== Sys2Proof/Safety.lean ====
section
/-!
DEFINITION. The terms that claims use: what a reply changes, and the conditions that the rules promise of every state
the part reaches.
-/

namespace Sys2Proof.Machine

/-! ### Replies -/

/-- `s` with a frame of `len` bytes answered on port `p`: the old response shifted out, the new one in its place, and
nothing else changed (R161). -/
def replied (p : Port) (len : Nat) (r : Response) (s : State) : State :=
  s.setPort p { s.port p with response := r, shiftedOut := shiftOut (s.port p).response len }

/-- `s` with a frame of `len` bytes refused with FRAME on port `p`: the response, and FRAME_FAULT pending in that port's
view alone (R163). -/
def frameRefused (p : Port) (len : Nat) (code : Byte) (s : State) : State :=
  (replied p len { status := .frame, code := code, fields := [] } s).modPort p fun v =>
    { v with view := { v.view with pending := v.view.pending ||| BitVec.ofNat 26 (2 ^ 24) } }

/-- RESET_N is high (R160, R178), and the whole effect of port p's earlier commands is in place (R183). A frame of the
port that finds it otherwise is FramesFindEarlierEffects'. -/
def FramesTaken (s : State) (p : Port) : Prop :=
  s.resetPhase = .released ∧ ∀ n : Lane, (s.lane n).timer.chainOffer.owed p = false

/-- A frame of port p is taken, and lane n is not held by the other port (R168). -/
def LaneOpen (s : State) (p : Port) (n : Lane) : Prop :=
  FramesTaken s p ∧ s.holder (laneResource n) ≠ some (otherPort p)

/-- The state in which a frame's command is taken (R178, R183): what the port's earlier commands owe is in place, if the
select activity is a frame at all. -/
def foundBy (f : Select) (s : State) : State :=
  if s.resetPhase = .released ∧ f.early = false then s.startOwed f.port else s

/-- The frame length in bytes of the commands that have one (Table 11-2); WORD_WRITE's depends on its count. -/
def frameLengthFits : Instr → Bool
  | .nop _ _ => true
  | .identify _ as => as.length == 0
  | .portReset _ as => as.length == 0
  | .reserve _ as => as.length == 1
  | .release _ as => as.length == 1
  | .reservationRead _ as => as.length == 0
  | .eventRead _ as => as.length == 0
  | .eventClear _ as => as.length == 4
  | .eventEnable _ as => as.length == 4
  | .holdoffSet _ as => as.length == 1
  | .segSelect _ as => as.length == 1
  | .segWrite _ as => as.length == 31
  | .segRead _ as => as.length == 0
  | .segClear _ as => as.length == 1
  | .wordSelect _ as => as.length == 2
  | .wordWrite _ as =>
    match as with
    | [] => false
    | n :: ws => ws.length == 8 * n.toNat
  | .wordRead _ as => as.length == 1
  | .planSet _ as => as.length == 23
  | .planCheck _ as => as.length == 1
  | .planRead _ as => as.length == 1
  | .laneStart _ as => as.length == 1
  | .laneTrigger _ as => as.length == 1
  | .laneHalt _ as => as.length == 1
  | .laneStatus _ as => as.length == 1
  | .injectSet _ as => as.length == 7
  | .injectRead _ as => as.length == 1
  | .injectTotalsClear _ as => as.length == 1
  | .sigClear _ as => as.length == 1
  | .sigRead _ as => as.length == 1
  | .routeSet _ as => as.length == 4
  | .checkConfig _ as => as.length == 5
  | .checkStart _ as => as.length == 1
  | .checkStop _ as => as.length == 1
  | .checkStatus _ as => as.length == 1
  | .totalsRead _ as => as.length == 1
  | .totalsClear _ as => as.length == 1
  | .gateConfig _ as => as.length == 16
  | .gateArm _ as => as.length == 1
  | .gateTrigger _ as => as.length == 1
  | .gateStop _ as => as.length == 1
  | .gateStatus _ as => as.length == 1
  | .resultRead _ as => as.length == 1
  | .resultPeek _ as => as.length == 1
  | .resultClear _ as => as.length == 1
  | .unknownCodeFrame _ _ _ => true
  | .emptyFrame _ => true
  | .deviceReset => true
  | .trigEdge _ _ => true
  | .gateEdge _ _ => true
  | .transmitSlot _ => true
  | .pauseEnd _ => true
  | .wordLimitReached _ => true
  | .receiveWord _ _ => true
  | .tick => true
  | .sliceClose _ => true
  | .intervalExpiry _ => true
  | .chainStart _ => true
  | .holdoffExpiry _ => true
  | .resetNReturnsHigh => true

/-- The commands whose first argument is a lane, checker or timer number (Table 11-2). -/
def namesLane : Instr → Bool
  | .planSet _ _ | .planCheck _ _ | .planRead _ _ | .laneStart _ _ | .laneTrigger _ _ | .laneHalt _ _
  | .laneStatus _ _ | .injectSet _ _ | .injectRead _ _ | .injectTotalsClear _ _ | .sigClear _ _ | .sigRead _ _
  | .routeSet _ _ | .checkConfig _ _ | .checkStart _ _ | .checkStop _ _ | .checkStatus _ _ | .totalsRead _ _
  | .totalsClear _ _ | .gateConfig _ _ | .gateArm _ _ | .gateTrigger _ _ | .gateStop _ _ | .gateStatus _ _
  | .resultRead _ _ | .resultPeek _ _ | .resultClear _ _ => true
  | _ => false

/-- The commands that need the lane they name (R168, Table 10-2). -/
def needsLane : Instr → Bool
  | .planSet _ _ | .planCheck _ _ | .laneStart _ _ | .laneTrigger _ _ | .laneHalt _ _ | .injectSet _ _
  | .injectTotalsClear _ _ | .sigClear _ _ | .routeSet _ _ | .checkConfig _ _ | .checkStart _ _ | .checkStop _ _
  | .totalsClear _ _ | .gateConfig _ _ | .gateArm _ _ | .gateTrigger _ _ | .gateStop _ _ | .resultClear _ _ => true
  | _ => false

/-- Whether the arguments that follow a command's lane number lie in their ranges (R162 check 3), for a frame of the
command's length. -/
def argumentsInRange : Instr → Bool
  | .planSet _ as => (planOfBytes (Reset.plan 0) (as.drop 1)).isSome
  | .injectSet _ as => (injectionOfBytes (byteAt as 1) (byteAt as 2) (byteAt as 3) (fieldAt as 4 3)).isSome
  | .routeSet _ as => (routeOfBytes (byteAt as 1) (byteAt as 2) (byteAt as 3)).isSome
  | .checkConfig _ as => (checkConfigOfBytes (byteAt as 1) (byteAt as 2) (byteAt as 3) (byteAt as 4)).isSome
  | .gateConfig _ as =>
    match laneOfByte (byteAt as 0) with
    | some n => (timerConfigOfBytes n (as.drop 1)).isSome
    | none => false
  | _ => true

/-! ### Terms of the rules -/

/-- A lane whose timer has just started an interval (R121): the interval accumulators zeroed with their latch, the timer
cleared and in RUN, and the slice mark set at once when unit TIME finds the gate active and the checker outside
LOCKED. -/
def freshInterval (l : LaneState) : LaneState :=
  { l with
    acc := { l.acc with interval := Reset.intervalAcc, intervalLatch := false }
    timer := { l.timer with
      state := .run
      progress := { Reset.progress with
        sliceMark := l.timer.config.unit == .time && gateActive l && l.checker.state != .locked }
      chainOffer := .none } }

/-- Both views with an event pending, and nothing else of the ports changed (R170). -/
def withEvent (e : Event) (s : State) : State :=
  s.modPorts fun v => { v with view := { v.view with pending := v.view.pending ||| BitVec.ofNat 26 (2 ^ e.bit) } }

/-- A link of a plan's chain (R26): segment i is defined and its next names j. -/
def Links (record : Fin 64 → Option Segment) (i j : Fin 64) : Prop := ∃ sg, record i = some sg ∧ sg.next = some j

/-- One step of a walk within a pass (R46 steps 1 to 3): from position `pos` of segment `sg` to position `q`. -/
def Onward (sg : Segment) (pos q : Pos) : Prop :=
  (pos.i.toNat + 1 < sg.words.toNat ∧ q = { pos with i := pos.i + 1 }) ∨
  (sg.words.toNat ≤ pos.i.toNat + 1 ∧ pos.r.toNat < sg.reps.toNat ∧ q = { pos with r := pos.r + 1, i := 0 }) ∨
  (sg.words.toNat ≤ pos.i.toNat + 1 ∧ sg.reps.toNat ≤ pos.r.toNat ∧
    ∃ t, sg.next = some t ∧ q = { pos with seg := t, r := 0, i := 0 })

/-- The last word of a pass (R46 step 4). -/
def AtPassEnd (sg : Segment) (pos : Pos) : Prop :=
  sg.words.toNat ≤ pos.i.toNat + 1 ∧ sg.reps.toNat ≤ pos.r.toNat ∧ sg.next = none

/-- The reference position after a pattern word (R86): onward, or at the start of the next pass behind the plan's
pause. -/
def ReferenceNext (pl : Plan) (sg : Segment) (pos q : Pos) : Prop :=
  Onward sg pos q ∨ (AtPassEnd sg pos ∧ q = { seg := pl.first, r := 0, i := 0, p := pos.p + 1, pause := pl.pause })

/-- A lane at the start of a run (R43, R53, R65); `seed` is the stored seed of a FREE-RUN plan's segment. -/
def begunRun (seed : BitVec 32) (l : LaneState) : LaneState :=
  { l with
    gen := { l.gen with
      state := .running
      pos := { seg := l.plan.first, r := 0, i := 0, p := 1, pause := 0 }
      wordsEmitted := 0
      passesDone := 0
      prbs := seed }
    inject := { l.inject with periodCount := 0 } }

/-- A generator at the end of a run into ARMED (R49, R51): one more slot emitted and one more run completed. -/
def endedRun (pl : Plan) (g : Generator) : Generator :=
  { g with
    state := .armed
    pendingTrigger := false
    pos := { seg := pl.first, r := 0, i := 0, p := 0, pause := 0 }
    wordsEmitted := g.wordsEmitted + 1
    runsCompleted := g.runsCompleted + 1 }

/-- Bit m of the sequence of a PRBS segment from its seed on (R8, R9): bits 0 to k − 1 stand for b−k to b−1, and bit
k + n is bn, read from the words that the part forms, before inversion. -/
def prbsStreamBit (o : PrbsOrder) (seed : BitVec 32) (m : Nat) : Bool :=
  if m < o.k then seed.getLsbD (o.k - 1 - m)
  else (prbsRawWord o (prbsStateAt o seed ((m - o.k) / 64))).getLsbD (63 - (m - o.k) % 64)

/-- The word a SEQUENCE generator forms at its position, when its segment is `sg` (R46). -/
def patternAt (s : State) (n : Lane) (sg : Segment) : Word :=
  formWord s.store sg (s.lane n).plan.passStep (s.lane n).gen.pos

/-- The pattern word of lane n's next slot in RUNNING, whether it is counted, and the FREE-RUN state after it (R46,
R53). -/
def PatternWordIs (s : State) (n : Lane) (w : Word) (counted : Bool) (prbs : BitVec 32) : Prop :=
  ((s.lane n).plan.mode = .sequence ∧ ∃ sg, s.record (s.lane n).gen.pos.seg = some sg ∧ w = patternAt s n sg ∧
    counted = sg.counted ∧ prbs = (s.lane n).gen.prbs) ∨
  ((s.lane n).plan.mode = .freeRun ∧ ∃ sg o invert seed, s.record (s.lane n).plan.first = some sg ∧
    sg.kind = .prbs o invert seed ∧ w = inverted invert (prbsRawWord o (s.lane n).gen.prbs) ∧ counted = true ∧
    prbs = prbsAfterWord o (s.lane n).gen.prbs)

/-- The bits that lane n's injection unit flips in a pattern word, and the unit after (R62): an uncounted word passes it
by. -/
def FlipsAre (s : State) (n : Lane) (counted : Bool) (flips : Word) (used : InjectUnit) : Prop :=
  (counted = true ∧ injectEligible (s.lane n).inject = (flips, used)) ∨
  (counted = false ∧ flips = 0 ∧ used = (s.lane n).inject)

/-- `s` after a RUNNING slot of lane n has sent word `w` with `flips` in it, before the walk goes on (R57, R68, R70, R71):
the flipped bits totalled and credited to every associated interval that counts, the word folded, counted and on the
bus. -/
def emitted (n : Lane) (w flips : Word) (used : InjectUnit) (prbs : BitVec 32) (s : State) : State :=
  let credited (l : LaneState) : LaneState :=
    if l.route.associate = some n ∧ counting l = true then
      { l with acc := { l.acc with interval := { l.acc.interval with
        injected := BitVec.ofNat 32 (min (l.acc.interval.injected.toNat + ones flips) (2 ^ 32 - 1)) } } }
    else l
  { s with lanes := Vector.ofFn fun m =>
    if m = n then
      { credited (s.lane n) with
        gen := { (s.lane n).gen with wordsEmitted := (s.lane n).gen.wordsEmitted + 1, prbs := prbs }
        inject :=
          if ones flips = 0 then used
          else { used with
            bits := BitVec.ofNat 48 (min (used.bits.toNat + ones flips) (2 ^ 48 - 1))
            words := BitVec.ofNat 40 (min (used.words.toNat + 1) (2 ^ 40 - 1)) }
        sig := { (s.lane n).sig with reg := foldWord (s.lane n).sig.reg w }
        txBus := w }
    else credited (s.lane m) }

/-- Word `w` of generator n offered to the looped checkers in state `s` (R57 step 4, R76). -/
def offered (n : Lane) (w : Word) (s : State) : Host.Outcome State Fault Refusal := walkOutcome (deliver (.loop n) w s)

/-- Word `w` arriving from a source (R76): over a receive bus it is RECEIVE_WORD, over a loop the end of TRANSMIT_SLOT. -/
def arrives (src : Source) (w : Word) (s : State) : Host.Outcome State Fault Refusal :=
  match src with
  | .external b => exec (.receiveWord b w) s
  | .loop n => offered n w s

/-- Source `src` feeds checker n and no other (R76). -/
def FeedsOnly (s : State) (src : Source) (n : Lane) : Prop := ∀ m : Lane, (s.lane m).route.source = src ↔ m = n

/-- What checker n by itself does with a word of its source (R76, R115). -/
def heard (n : Lane) (w : Word) (s : State) : Host.Outcome State Fault Refusal := walkOutcome (receiveAt s n w)

/-- A word taken by each checker of `ns` whose route names its source, each over what the one before has left. -/
def heardInTurn (src : Source) (w : Word) : List Lane → State → Host.Outcome State Fault Refusal
  | [], s => .next s
  | n :: ns, s =>
    if (s.lane n).route.source = src then
      match heard n w s with
      | .next t => heardInTurn src w ns t
      | stop => stop
    else heardInTurn src w ns s

/-- Checker n handles word `w` with outcome `o`: by itself, whatever other checkers take the word too (R76, R115), and as
the whole of the word's arrival from a source that feeds no other. -/
def Handles (s : State) (n : Lane) (w : Word) (o : Host.Outcome State Fault Refusal) : Prop :=
  heard n w s = o ∧ ∀ src : Source, FeedsOnly s src n → arrives src w s = o

/-- Lane n stands in `t` as in `u`, and so do its events and its result cursors in both ports. Its chain offer stands too,
but that it may wait in addition on the close of a lane that `closing` allows (R124). -/
def LaneStandsAs (n : Lane) (closing : Lane → Prop) (u t : State) : Prop :=
  t.lane n = { u.lane n with timer := { (u.lane n).timer with chainOffer := (t.lane n).timer.chainOffer } } ∧
  ((t.lane n).timer.chainOffer = (u.lane n).timer.chainOffer ∨
    (∃ m : Lane, m ≠ n ∧ closing m ∧ (u.lane n).timer.state = .wait ∧ (u.lane n).timer.config.trigger = .chain m) ∧
      (t.lane n).timer.chainOffer = { (u.lane n).timer.chainOffer with standing := true }) ∧
  ∀ p : Port, (t.port p).results[n] = (u.port p).results[n] ∧
    ∀ k, k < 6 → (t.port p).view.pending.getLsbD (6 * n.val + k) = (u.port p).view.pending.getLsbD (6 * n.val + k)

/-- No checker takes generator n's words over the loop (R76). -/
def NoLoop (s : State) (n : Lane) : Prop := ∀ m : Lane, (s.lane m).route.source ≠ .loop n

/-- The word limit of lane n's run does not fall on the next slot (R51). -/
def ShortOfLimit (s : State) (n : Lane) : Prop :=
  (s.lane n).plan.wordLimit = 0 ∨ (s.lane n).gen.wordsEmitted.toNat + 1 ≠ (s.lane n).plan.wordLimit.toNat

/-! ### Received words -/

/-- Checker n's reference for the next word is the counted word `ref` under `mask`, and `next` is the checker with its
reference past it (R86, R87). -/
def CountedReference (s : State) (n : Lane) (ref mask : Word) (next : Checker) : Prop :=
  ((s.lane n).checker.mode = .sequence ∧ (s.lane n).checker.pos.pause = 0 ∧
    ∃ sg q, s.record (s.lane n).checker.pos.seg = some sg ∧ sg.counted = true ∧
      ReferenceNext (checkerPlan s n) sg (s.lane n).checker.pos q ∧
      ref = formWord s.store sg (checkerPlan s n).passStep (s.lane n).checker.pos ∧
      mask = effectiveMask sg (s.lane n).checker.pos.i ∧ next = { (s.lane n).checker with pos := q }) ∨
  ((s.lane n).checker.mode = .freeRun ∧
    ∃ sg o invert seed, s.record (checkerPlan s n).first = some sg ∧ sg.kind = .prbs o invert seed ∧
      ref = inverted invert (prbsRawWord o (s.lane n).checker.prbs) ∧ mask = sg.mask ∧
      next = { (s.lane n).checker with prbs := prbsAfterWord o (s.lane n).checker.prbs })

/-- Checker n's reference for the next word is a pause position or an uncounted word, and `next` is the checker with its
reference past it (R86). -/
def UncountedReference (s : State) (n : Lane) (next : Checker) : Prop :=
  (s.lane n).checker.mode = .sequence ∧
  (((s.lane n).checker.pos.pause ≠ 0 ∧
      next = { (s.lane n).checker with
        pos := { (s.lane n).checker.pos with pause := (s.lane n).checker.pos.pause - 1 } }) ∨
    ((s.lane n).checker.pos.pause = 0 ∧
      ∃ sg q, s.record (s.lane n).checker.pos.seg = some sg ∧ sg.counted = false ∧
        ReferenceNext (checkerPlan s n) sg (s.lane n).checker.pos q ∧ next = { (s.lane n).checker with pos := q }))

/-- A checker back in SEARCH: no score, progress or position is left (R81, R94, R97). -/
def searching (c : Checker) : Checker :=
  { c with state := .search, progress := 0, slip := 0, pos := { seg := 0, r := 0, i := 0, p := 0, pause := 0 } }

/-- The first-error offset after an accumulated word of e errored bits, whose c carried the compared bits past their
maximum or not (R106; what leaves the offset open is read from the counts, log 22). -/
def offsetAfter (mode : OverflowMode) (a : IntervalAcc) (e : Nat) (passed : Bool) : Option (BitVec 48) :=
  if mode = .wrap ∧ passed = true then none
  else
    match a.firstError with
    | some v => some v
    | none =>
      if 0 < e ∧ a.words.value = 0 ∧ a.words.tally = 0 ∧ a.compared.tally = 0 ∧
          a.compared.value ≠ BitVec.allOnes 48 then some a.compared.value
      else none

/-- `s` after a word of c compared and e errored bits has been handed to lane n's counts (R102 steps 1 and 2, R103, R105,
R111): to the run totals, and to the interval and its slice when the interval counts. A count that passes its maximum
under a clear latch sets the latch and raises ACCUM_LIMIT. -/
def accumulated (n : Lane) (c e : Nat) (s : State) : State :=
  let l := s.lane n
  let add {w : Nat} (x : Counter w) (k : Nat) : Counter w × Bool := x.add l.checker.config.overflow k
  let errored : Nat := if 0 < e then 1 else 0
  let run := l.acc.run
  let ivl := l.acc.interval
  let runPassed := (add run.compared c).2 || (add run.errored e).2 || (add run.words errored).2
  let ivlPassed := counting l && ((add ivl.compared c).2 || (add ivl.errored e).2 || (add ivl.words errored).2)
  let t := s.setLane n { l with acc :=
    { run := { run with
        compared := (add run.compared c).1, errored := (add run.errored e).1, words := (add run.words errored).1 }
      interval :=
        if counting l then
          { ivl with
            compared := (add ivl.compared c).1
            errored := (add ivl.errored e).1
            words := (add ivl.words errored).1
            firstError := offsetAfter l.checker.config.overflow ivl e (add ivl.compared c).2
            sliceCompared := BitVec.ofNat 48 (min (ivl.sliceCompared.toNat + c) (2 ^ 48 - 1))
            sliceErrored := BitVec.ofNat 40 (min (ivl.sliceErrored.toNat + e) (2 ^ 40 - 1)) }
        else ivl
      runLatch := l.acc.runLatch || runPassed
      intervalLatch := l.acc.intervalLatch || ivlPassed } }
  if (runPassed && !l.acc.runLatch) || (ivlPassed && !l.acc.intervalLatch) then withEvent (.accumLimit n) t else t

/-- `s` with lane n's checker in LOCKED at the reference `next` (R94, R98): the gain counted in the run, and in the
interval when it counts, and LOCK_GAINED raised. -/
def lockGained (n : Lane) (next : Checker) (s : State) : State :=
  let l := s.lane n
  let gains := l.acc.run.gains.add l.checker.config.overflow 1
  let t := s.setLane n
    { l with
      checker := { next with state := .locked, progress := 0, slip := 0 }
      acc := { l.acc with
        run := { l.acc.run with gains := gains.1 }
        runLatch := l.acc.runLatch || gains.2
        interval := { l.acc.interval with
          gains :=
            if counting l then BitVec.ofNat 16 (min (l.acc.interval.gains.toNat + 1) (2 ^ 16 - 1))
            else l.acc.interval.gains } } }
  withEvent (.lockGained n) (if gains.2 && !l.acc.runLatch then withEvent (.accumLimit n) t else t)

/-- `s` with lane n's checker back in SEARCH by a loss of lock (R97, R98, R132): the loss counted in the run, and in the
interval when it counts, where it marks the open slice, and LOCK_LOST raised. -/
def lockLost (n : Lane) (s : State) : State :=
  let l := s.lane n
  let losses := l.acc.run.losses.add l.checker.config.overflow 1
  let t := s.setLane n
    { l with
      checker := searching l.checker
      acc := { l.acc with
        run := { l.acc.run with losses := losses.1 }
        runLatch := l.acc.runLatch || losses.2
        interval := { l.acc.interval with
          losses :=
            if counting l then BitVec.ofNat 16 (min (l.acc.interval.losses.toNat + 1) (2 ^ 16 - 1))
            else l.acc.interval.losses } }
      timer := { l.timer with progress := { l.timer.progress with
        sliceMark := l.timer.progress.sliceMark || counting l } } }
  withEvent (.lockLost n) (if losses.2 && !l.acc.runLatch then withEvent (.accumLimit n) t else t)

/-! ### Slices, units and expiries -/

/-- A lane's progress with its open slice put in the first class whose test holds, and offered to the worst-slice list
when ERRORED or SEVERE (R133, R134). -/
def classed (l : LaneState) : IntervalProgress :=
  let q := l.timer.progress
  let e := l.acc.interval.sliceErrored.toNat
  let severe := exceeds l.timer.config.severe e l.acc.interval.sliceCompared.toNat
  { q with
    slicesClosed := q.slicesClosed + 1
    unavailable := q.unavailable + if q.sliceMark then 1 else 0
    severe := q.severe + if !q.sliceMark && severe then 1 else 0
    errored := q.errored + if !q.sliceMark && !severe && decide (0 < e) then 1 else 0
    clean := q.clean + if !q.sliceMark && !severe && decide (e = 0) then 1 else 0
    worst :=
      if !q.sliceMark && (severe || decide (0 < e)) then
        offerWorst { index := q.sliceIndex, bits := BitVec.ofNat 32 (min e (2 ^ 32 - 1)) } q.worst
      else q.worst }

/-- A lane whose slice has closed by its units and whose next slice is open (R131, R132). -/
def nextSlice (l : LaneState) : LaneState :=
  { l with
    acc := { l.acc with interval := { l.acc.interval with sliceCompared := 0, sliceErrored := 0 } }
    timer := { l.timer with progress := { classed l with
      sliceIndex := l.timer.progress.sliceIndex + 1, sliceUnits := 0, sliceMark := unavailableNow l } } }

/-- A lane with one more unit counted (R127, R128), the slice that it fills closed (R131). -/
def unitTaken (l : LaneState) : LaneState :=
  let m : LaneState := { l with timer := { l.timer with progress := { l.timer.progress with
    elapsed := l.timer.progress.elapsed + 1, sliceUnits := l.timer.progress.sliceUnits + 1 } } }
  if l.timer.progress.sliceUnits + 1 = l.timer.config.slice then nextSlice m else m

/-- A lane whose timer has gone to STOP; no close is on its way to it. -/
def stopped (l : LaneState) : LaneState := { l with timer := { l.timer with state := .stop, chainOffer := .none } }

/-- `s` after lane n's interval has closed by expiry (R130): STOP under ONCE, a fresh interval under REPEAT. -/
def expired (n : Lane) (s : State) : State :=
  (closeInterval s n .expiry none).modLane n fun l =>
    match l.timer.config.mode with
    | .once => stopped l
    | .repeating => freshInterval l

/-- `s` after one unit of lane n's interval (R127, R128, R130): the unit counted, and the interval closed by expiry when
the unit brings it to its length. -/
def unitCounted (n : Lane) (s : State) : State :=
  if (s.lane n).timer.progress.elapsed + 1 = (s.lane n).timer.config.length then expired n (s.modLane n unitTaken)
  else s.modLane n unitTaken

/-- `s` after a compared word's unit (R102 step 3, R128, R130): a WORDS-unit interval that counts takes one unit. -/
def wordUnit (n : Lane) (s : State) : State :=
  if counting (s.lane n) = true ∧ (s.lane n).timer.config.unit = .words then unitCounted n s else s

/-- `s` after a tick at lane n's timer (R127, R130): a TIME-unit interval that counts takes one unit. -/
def tickUnit (n : Lane) (s : State) : State :=
  if counting (s.lane n) = true ∧ (s.lane n).timer.config.unit = .time then unitCounted n s else s

/-- Whether a tick brings a lane's interval to its length (R127, R130). -/
def dueAtTick (l : LaneState) : Bool :=
  counting l && l.timer.config.unit == .time && l.timer.progress.elapsed + 1 == l.timer.config.length

/-! ### What the rules promise of every state -/

/-- The Pattern Word Store keeps its canonical form. -/
def StoreCanonical (s : State) : Prop := Memory.wf s.store

/-- A generator holds a pending trigger only in RUNNING or PAUSING (R44). -/
def PendingOnlyInRun (s : State) : Prop :=
  ∀ n : Lane, (s.lane n).gen.pendingTrigger = true → (s.lane n).gen.state = .running ∨ (s.lane n).gen.state = .pausing

/-- What R79, R81, R94 and R96 promise of one checker: V and T at least 1, the slip score within T and 0 outside LOCKED,
the verify progress below V and 0 outside VERIFY, the position fields 0 in OFF and SEARCH. -/
def CheckerSound (c : Checker) : Prop :=
  1 ≤ c.config.verify.toNat ∧ 1 ≤ c.config.threshold.toNat ∧
  c.slip.toNat ≤ c.config.threshold.toNat ∧ (c.state ≠ .locked → c.slip = 0) ∧
  c.progress.toNat < c.config.verify.toNat ∧ (c.state ≠ .verify → c.progress = 0) ∧
  (c.state = .off ∨ c.state = .search → c.pos = Reset.pos)

/-- Every checker is sound. -/
def CheckersSound (s : State) : Prop := ∀ n : Lane, CheckerSound (s.lane n).checker

/-- What R116, R133 and R134 promise of one timer: outside RUN nothing of an interval is left, the class counts sum to
the slices closed, and the worst-slice list holds at most 4 entries in descending order. -/
def TimerSound (t : Timer) : Prop :=
  (t.state ≠ .run → t.progress = Reset.progress) ∧
  t.progress.slicesClosed =
    t.progress.clean + t.progress.errored + t.progress.severe + t.progress.unavailable ∧
  t.progress.worst.length ≤ 4 ∧ t.progress.worst.Pairwise fun x y => y.bits.toNat ≤ x.bits.toNat

/-- Every timer is sound. -/
def TimersSound (s : State) : Prop := ∀ n : Lane, TimerSound (s.lane n).timer

/-- What R106, R108 and R133 promise of one lane's counts: slice errored bits within slice compared bits; in SATURATE
mode errored bits within compared bits, in the interval and in the run; a first-error offset below the interval's
compared bits. -/
def CountsSound (l : LaneState) : Prop :=
  l.acc.interval.sliceErrored.toNat ≤ l.acc.interval.sliceCompared.toNat ∧
  (l.checker.config.overflow = .saturate →
    l.acc.interval.errored.value.toNat ≤ l.acc.interval.compared.value.toNat ∧
    l.acc.run.errored.value.toNat ≤ l.acc.run.compared.value.toNat) ∧
  ∀ v, l.acc.interval.firstError = some v → v.toNat < l.acc.interval.compared.value.toNat

/-- Every lane's counts are sound. -/
def AllCountsSound (s : State) : Prop := ∀ n : Lane, CountsSound (s.lane n)

/-- R150 and R151 for one ring: at most 16 records, with consecutive sequence numbers up to next_seq − 1. -/
def RingSound (r : Ring) : Prop :=
  r.records.length ≤ 16 ∧
  ∀ k (h : k < r.records.length),
    r.records[k].sequence = r.nextSeq - BitVec.ofNat 32 r.records.length + BitVec.ofNat 32 k

/-- R150 and R151: every ring is sound, and no port's unread records on a lane exceed the records held. -/
def RingsSound (s : State) : Prop :=
  ∀ n : Lane, RingSound (s.lane n).ring ∧
    ∀ p : Port, (unread (s.lane n).ring (s.port p).results[n]).toNat ≤ (s.lane n).ring.records.length

/-- What a VALID plan promises of its reach set (R26 to R28): segment first is in it and every member is defined; in
SEQUENCE mode it is closed under next links and holds the anchor; in FREE-RUN mode segment first is PRBS. -/
def PlanSound (s : State) (pl : Plan) : Prop :=
  pl.valid = true →
    pl.reach.getLsbD pl.first.val = true ∧
    (∀ i : Fin 64, pl.reach.getLsbD i.val = true → (s.record i).isSome = true) ∧
    (pl.mode = .sequence →
      pl.reach.getLsbD pl.anchor.val = true ∧
      ∀ (i : Fin 64) (sg : Segment) (t : Fin 64), pl.reach.getLsbD i.val = true → s.record i = some sg →
        sg.next = some t → pl.reach.getLsbD t.val = true) ∧
    (pl.mode = .freeRun →
      ∃ (sg : Segment) (o : PrbsOrder) (inv : Bool) (seed : BitVec 32),
        s.record pl.first = some sg ∧ sg.kind = .prbs o inv seed)

/-- Whether a walker marks every segment of a reach set (R12). -/
def MarksReach (s : State) (reach : BitVec 64) (w : Walker) : Prop :=
  ∀ i : Fin 64, reach.getLsbD i.val = true → (s.seg i).useSet.getLsbD w.bit = true

/-- R12 and R35: VALID plans are sound; a segment in use is defined; a walker outside STOPPED or OFF has a VALID plan
whose reach set it marks; and a walker inside a pass stands in that reach set. -/
def WalkersSound (s : State) : Prop :=
  (∀ n : Lane, PlanSound s (s.lane n).plan) ∧
  (∀ i : Fin 64, (s.seg i).useSet ≠ 0 → (s.record i).isSome = true) ∧
  (∀ n : Lane, (s.lane n).gen.state ≠ .stopped →
    (s.lane n).plan.valid = true ∧ MarksReach s (s.lane n).plan.reach (.generator n)) ∧
  (∀ n : Lane, (s.lane n).gen.state = .running ∨ (s.lane n).gen.state = .pausing →
    (s.lane n).plan.reach.getLsbD (s.lane n).gen.pos.seg.val = true) ∧
  (∀ n : Lane, (s.lane n).checker.state ≠ .off →
    (checkerPlan s n).valid = true ∧ MarksReach s (checkerPlan s n).reach (.checker n) ∧
    (s.lane n).checker.mode = (checkerPlan s n).mode) ∧
  (∀ n : Lane, (s.lane n).checker.state = .verify ∨ (s.lane n).checker.state = .locked →
    (checkerPlan s n).reach.getLsbD (s.lane n).checker.pos.seg.val = true)

/-- R132, unit TIME: whenever the timer is in RUN with its gate level active and the checker outside LOCKED, the open
slice is marked. -/
def MarksSound (s : State) : Prop := ∀ n : Lane, unavailableNow (s.lane n) = true →
  (s.lane n).timer.progress.sliceMark = true

/-- No event that the part takes itself is left due on a lane (R48, R51, R130, R131), and L and S are at least 1
(R117). -/
def LaneSettled (l : LaneState) : Prop :=
  1 ≤ l.timer.config.length.toNat ∧ 1 ≤ l.timer.config.slice.toNat ∧
  (l.timer.state = .run →
    l.timer.progress.elapsed.toNat < l.timer.config.length.toNat ∧
    l.timer.progress.sliceUnits.toNat < l.timer.config.slice.toNat) ∧
  (l.gen.state = .pausing → l.gen.pos.pause ≠ 0) ∧
  (inRun l.gen = true → l.plan.wordLimit ≠ 0 → l.gen.wordsEmitted.toNat < l.plan.wordLimit.toNat)

/-- No event that the part takes itself is left due anywhere (R48, R51, R130, R131, R173). -/
def Settled (s : State) : Prop :=
  (∀ n : Lane, LaneSettled (s.lane n)) ∧
  ∀ p : Port, (s.port p).view.holdoff.running = true → (s.port p).view.holdoff.remaining ≠ 0

/-- R2, R3: the ranges of a stored segment record. -/
def SegmentInRange (sg : Segment) : Prop :=
  1 ≤ sg.words.toNat ∧ sg.words.toNat ≤ 65536 ∧ 1 ≤ sg.tail.toNat ∧ sg.tail.toNat ≤ 8 ∧
  ∀ o inv seed, sg.kind = .prbs o inv seed → seed ≠ 0 ∧ seed.toNat < 2 ^ o.k

/-- R61, R64, R65: the ranges of an injection unit. -/
def InjectInRange (u : InjectUnit) : Prop :=
  match u.setting with
  | .off => u.periodCount = 0
  | .single _ => u.periodCount = 0
  | .burst _ len => u.periodCount = 0 ∧ 1 ≤ len.toNat ∧ len.toNat ≤ 64
  | .periodic _ period => 2 ≤ period.toNat ∧ u.periodCount.toNat < period.toNat

/-- R117, R145: the range of a stored threshold. -/
def ThresholdInRange (t : Threshold) : Prop := (t.tm = 0 ∨ 32768 ≤ t.tm.toNat) ∧ t.tx.toNat ≤ 55

/-- What is stored stays in its range (R2, R3, R29, R61, R118): segment records, a plan's VALID beside its verdict,
injection units, thresholds, and no CHAIN trigger on the timer's own lane. -/
def StoredInRange (s : State) : Prop :=
  (∀ (i : Fin 64) (sg : Segment), s.record i = some sg → SegmentInRange sg) ∧
  ∀ n : Lane,
    ((s.lane n).plan.valid = true ↔ (s.lane n).plan.verdict = .valid) ∧ InjectInRange (s.lane n).inject ∧
    ThresholdInRange (s.lane n).timer.config.alarm ∧ ThresholdInRange (s.lane n).timer.config.severe ∧
    (s.lane n).timer.config.trigger ≠ .chain n

/-- A chain offer stands only at a follower that waits on another lane's close (R124), and a port owes only what stands
(R183). -/
def OffersSound (s : State) : Prop :=
  ∀ n : Lane,
    ((s.lane n).timer.chainOffer.standing = true →
      (s.lane n).timer.state = .wait ∧ ∃ m : Lane, m ≠ n ∧ (s.lane n).timer.config.trigger = .chain m) ∧
    ∀ p : Port, (s.lane n).timer.chainOffer.owed p = true → (s.lane n).timer.chainOffer.standing = true

end Sys2Proof.Machine
end

