-- ==== Sys2Proof/Certificates/Slice0/Obligations.lean ====
section
/-!
DEFINITION. The statements for the provers, chapter by chapter of the spec.
-/

section
open Sys2Proof Sys2Proof.Machine

/-! ### The queue and the frames (chapters 10 and 11) -/

/-- The queue's front command is the one a step runs, over the queue's rest; on an empty queue the block idles (the
idling is the model's choice, log 5). -/
def Obligations.StepRunsFrontCommand : Prop :=
  ∀ s : State,
    (∀ c rest, s.pending = c :: rest → step s = exec c { s with pending := rest }) ∧
    (s.pending = [] → step s = .next s)

/-- R160, R162 check 1, R179, Table 11-2: the bytes of a frame and the command it carries determine each other. That a
term of UNKNOWN_CODE_FRAME stands for a frame only when its code names no command is the model's (log 16), and so is
decodeFrame as the spelling of a command, since the table gives its rows no bits (log 27). -/
def Obligations.FrameBytesAndCommandsAgree : Prop :=
  (∀ (c : Instr) (f : Select) (bs : List Byte),
    c.WellFormed = true → frameBytes c = some (f, bs) → decodeFrame f bs = c) ∧
  ∀ (f : Select) (bs : List Byte),
    frameBytes (decodeFrame f bs) = some (f, bs) ∧ (decodeFrame f bs).WellFormed = true

/-- R160, R161, R163: a frame shifts the old response out from its first byte, with zeros past its end; NOP leaves the
response, an empty frame takes nothing, and a code that names no command answers UNKNOWN and raises nothing. R160,
R178: a select activity that ends while RESET_N is low, or that began less than 1 ms after its rise, is no frame and
changes nothing; that the term of a frame says when its select line became active is the model's (log 2). That the
bytes shifted out stay readable in the state is the model's too (log 19). -/
def Obligations.FramesAreTakenAndAnswered : Prop :=
  ((∀ (r : Response) (len : Nat), (shiftOut r len).length = len ∧
     ∀ k, k < len → (shiftOut r len)[k]? = some ((responseBytes r).getD k 0)) ∧
   (∀ (p : Port) (args : List Byte) (s : State), FramesTaken s p →
     exec (.nop p.frame args) s =
       .next (s.modPort p fun v => { v with shiftedOut := shiftOut v.response (1 + args.length) })) ∧
   (∀ (p : Port) (s : State), FramesTaken s p → exec (.emptyFrame p.frame) s = .next s) ∧
   ∀ (p : Port) (code : Byte) (args : List Byte) (s : State), codeNamesCommand code = false → FramesTaken s p →
     exec (.unknownCodeFrame p.frame code args) s =
       .next (replied p (1 + args.length) { status := .unknown, code := code, fields := [] } s)) ∧
  ∀ (c : Instr) (f : Select) (bs : List Byte) (s : State),
    c.WellFormed = true → frameBytes c = some (f, bs) → s.resetPhase = .held ∨ f.early = true → exec c s = .next s

/-- R162 check 2, R163: a frame of another length than its command's is refused with FRAME and raises FRAME_FAULT in
its own port's view alone. -/
def Obligations.WrongLengthAnswersFrame : Prop :=
  ∀ (c : Instr) (p : Port) (code : Byte) (args : List Byte) (s : State),
    frameBytes c = some (p.frame, code :: args) → FramesTaken s p → frameLengthFits c = false →
    exec c s = .next (frameRefused p (1 + args.length) code s)

/-- R162 check 3: a lane number above 3, or another argument outside its range, is refused with RANGE, before any
reservation or state is looked at, and changes nothing else. -/
def Obligations.ArgumentOutOfRangeAnswersRange : Prop :=
  ∀ (c : Instr) (p : Port) (code b : Byte) (rest : List Byte) (s : State),
    namesLane c = true → frameBytes c = some (p.frame, code :: b :: rest) → frameLengthFits c = true → FramesTaken s p →
    4 ≤ b.toNat ∨ argumentsInRange c = false →
    exec c s = .next (replied p (2 + rest.length) { status := .range, code := code, fields := [] } s)

/-- R30, R66, R78, R80, R118, Table 11-3: which arguments of the setting commands are out of range, what each code in
range stands for, and what the clamps store. -/
def Obligations.SettingArgumentsKeepTheirRanges : Prop :=
  (∀ (old : Plan) (bs : List Byte),
    (planOfBytes old bs = none ↔
      1 < (byteAt bs 0).toNat ∨ 63 < (byteAt bs 1).toNat ∨ 63 < (byteAt bs 2).toNat ∨ 3 < (byteAt bs 3).toNat ∨
        4095 < fieldAt bs 8 2) ∧
    ∀ v : Plan, planOfBytes old bs = some v →
      v.mode = (if byteAt bs 0 = 0 then .sequence else .freeRun) ∧ v.first.val = (byteAt bs 1).toNat ∧
      v.anchor.val = (byteAt bs 2).toNat ∧
      v.trigger = (if byteAt bs 3 = 0 then .soft else if byteAt bs 3 = 1 then .trigRise
        else if byteAt bs 3 = 2 then .trigFall else .trigBoth) ∧
      v.passCount.toNat = fieldAt bs 4 2 ∧ v.pause.toNat = fieldAt bs 6 2 ∧ v.passStep.toNat = fieldAt bs 8 2 ∧
      v.wordLimit.toNat = fieldAt bs 10 4 ∧ v.idleWord.toNat = fieldAt bs 14 8 ∧ v.valid = old.valid ∧
      v.reach = old.reach ∧ v.verdict = old.verdict ∧ v.verdictSeg = old.verdictSeg) ∧
  (∀ (kind bit len : Byte) (period : Nat),
    (injectionOfBytes kind bit len period = none ↔
      3 < kind.toNat ∨ (kind.toNat ≠ 0 ∧ 63 < bit.toNat) ∨ (kind.toNat = 2 ∧ (len.toNat = 0 ∨ 64 < len.toNat))) ∧
    (kind = 0 → injectionOfBytes kind bit len period = some .off) ∧
    ∀ x : Injection, injectionOfBytes kind bit len period = some x → period < 2 ^ 24 →
      (kind = 1 → ∃ b : BitVec 6, b.toNat = bit.toNat ∧ x = .single b) ∧
      (kind = 2 → ∃ (b : BitVec 6) (k : BitVec 7), b.toNat = bit.toNat ∧ k.toNat = len.toNat ∧ x = .burst b k) ∧
      (kind = 3 → ∃ (b : BitVec 6) (P : BitVec 24), b.toNat = bit.toNat ∧ P.toNat = max 2 period ∧
        x = .periodic b P)) ∧
  (∀ kind m g : Byte,
    (routeOfBytes kind m g = none ↔ 1 < kind.toNat ∨ 3 < m.toNat ∨ (3 < g.toNat ∧ g.toNat ≠ 255)) ∧
    ∀ r : Route, routeOfBytes kind m g = some r →
      (∃ n : Lane, n.val = m.toNat ∧ r.source = if kind = 0 then .external n else .loop n) ∧
      (g = 255 → r.associate = none) ∧ (g ≠ 255 → ∃ n : Lane, n.val = g.toNat ∧ r.associate = some n)) ∧
  (∀ plan v t mode : Byte,
    (checkConfigOfBytes plan v t mode = none ↔ 3 < plan.toNat ∨ 1 < mode.toNat) ∧
    ∀ c : CheckConfig, checkConfigOfBytes plan v t mode = some c →
      c.planLane.val = plan.toNat ∧ c.verify.toNat = max 1 (min v.toNat 15) ∧
        c.threshold.toNat = max 1 (min t.toNat 63) ∧ c.overflow = if mode = 0 then .saturate else .wrap) ∧
  ∀ (n : Lane) (bs : List Byte),
    (timerConfigOfBytes n bs = none ↔
      1 < (byteAt bs 0).toNat ∨ 1 < (byteAt bs 6).toNat ∨ 6 < (byteAt bs 7).toNat ∨
        ((byteAt bs 7).toNat = 6 ∧ (3 < (byteAt bs 8).toNat ∨ (byteAt bs 8).toNat = n.val))) ∧
    ∀ c : TimerConfig, timerConfigOfBytes n bs = some c →
      c.unit = (if byteAt bs 0 = 0 then .time else .words) ∧ c.length.toNat = max 1 (fieldAt bs 1 3) ∧
      c.slice.toNat = max 1 (fieldAt bs 4 2) ∧ c.mode = (if byteAt bs 6 = 0 then .once else .repeating) ∧
      (byteAt bs 7 = 0 → c.trigger = .soft) ∧ (byteAt bs 7 = 1 → c.trigger = .gateRise) ∧
      (byteAt bs 7 = 2 → c.trigger = .gateFall) ∧ (byteAt bs 7 = 3 → c.trigger = .gateBoth) ∧
      (byteAt bs 7 = 4 → c.trigger = .levelHigh) ∧ (byteAt bs 7 = 5 → c.trigger = .levelLow) ∧
      (byteAt bs 7 = 6 → ∃ m : Lane, m.val = (byteAt bs 8).toNat ∧ c.trigger = .chain m) ∧
      c.alarm.tm.toNat = (if fieldAt bs 9 2 = 0 then 0 else max 32768 (fieldAt bs 9 2)) ∧
      c.alarm.tx.toNat = min 55 (byteAt bs 11).toNat ∧
      c.severe.tm.toNat = (if fieldAt bs 12 2 = 0 then 0 else max 32768 (fieldAt bs 12 2)) ∧
      c.severe.tx.toNat = min 55 (byteAt bs 14).toNat

/-- R162 check 4, R168: a command that needs a lane held by the other port is refused with RESERVED and changes
nothing else. -/
def Obligations.HeldLaneAnswersReserved : Prop :=
  ∀ (c : Instr) (p : Port) (code : Byte) (n : Lane) (rest : List Byte) (s : State),
    needsLane c = true → frameBytes c = some (p.frame, code :: laneCode n :: rest) → frameLengthFits c = true →
    argumentsInRange c = true → FramesTaken s p → s.holder (laneResource n) = some (otherPort p) →
    exec c s = .next (replied p (2 + rest.length) { status := .reserved, code := code, fields := [] } s)

/-- R32, R78, R80, R118: the BUSY refusals of the lane commands change nothing but the response. R40, R41, R83, R120,
R122: the STATE refusals change nothing but the response. -/
def Obligations.BusyAndWrongStateRefusals : Prop :=
  ((∀ (p : Port) (n : Lane) (rest : List Byte) (s : State), LaneOpen s p n → rest.length = 22 →
     argumentsInRange (.planSet p.frame (laneCode n :: rest)) = true →
     ((s.lane n).gen.state ≠ .stopped ∨
       ∃ c : Lane, (s.lane c).checker.config.planLane = n ∧ (s.lane c).checker.state ≠ .off) →
     exec (.planSet p.frame (laneCode n :: rest)) s =
         .next (replied p 24 { status := .busy, code := 0x20, fields := [] } s) ∧
       exec (.planCheck p.frame [laneCode n]) s = .next (replied p 2 { status := .busy, code := 0x21, fields := [] } s)) ∧
   (∀ (p : Port) (n : Lane) (kind m g : Byte) (s : State), LaneOpen s p n → (routeOfBytes kind m g).isSome = true →
     (s.lane n).checker.state ≠ .off →
     exec (.routeSet p.frame [laneCode n, kind, m, g]) s =
       .next (replied p 5 { status := .busy, code := 0x38, fields := [] } s)) ∧
   (∀ (p : Port) (n : Lane) (plan v t mode : Byte) (s : State), LaneOpen s p n →
     (checkConfigOfBytes plan v t mode).isSome = true → (s.lane n).checker.state ≠ .off →
     exec (.checkConfig p.frame [laneCode n, plan, v, t, mode]) s =
       .next (replied p 6 { status := .busy, code := 0x39, fields := [] } s)) ∧
   ∀ (p : Port) (n : Lane) (rest : List Byte) (s : State), LaneOpen s p n → rest.length = 15 →
     (timerConfigOfBytes n rest).isSome = true → (s.lane n).timer.state ≠ .stop →
     exec (.gateConfig p.frame (laneCode n :: rest)) s =
       .next (replied p 17 { status := .busy, code := 0x48, fields := [] } s)) ∧
  ∀ (p : Port) (n : Lane) (s : State), LaneOpen s p n →
    ((s.lane n).gen.state ≠ .stopped ∨ (s.lane n).plan.valid = false →
      exec (.laneStart p.frame [laneCode n]) s = .next (replied p 2 { status := .state, code := 0x28, fields := [] } s)) ∧
    ((s.lane n).gen.state = .stopped →
      exec (.laneTrigger p.frame [laneCode n]) s = .next (replied p 2 { status := .state, code := 0x29, fields := [] } s)) ∧
    ((s.lane n).checker.state ≠ .off ∨ (checkerPlan s n).valid = false →
      exec (.checkStart p.frame [laneCode n]) s = .next (replied p 2 { status := .state, code := 0x3A, fields := [] } s)) ∧
    ((s.lane n).timer.state ≠ .stop →
      exec (.gateArm p.frame [laneCode n]) s = .next (replied p 2 { status := .state, code := 0x49, fields := [] } s)) ∧
    ((s.lane n).timer.state = .stop →
      exec (.gateTrigger p.frame [laneCode n]) s = .next (replied p 2 { status := .state, code := 0x4A, fields := [] } s))

/-- R164: IDENTIFY names the part and the port, and changes nothing else. The widths of the counts are the model's
reading of R179 (log 10). R171, R175: EVENT_READ returns the sender's view with the level of its alert line, 1 for
asserted (the model's code, log 12), asserted exactly when a pending flag is enabled and the hold-off timer is not
running; it changes nothing else. -/
def Obligations.IdentityAndEventViewAreRead : Prop :=
  (∀ (p : Port) (s : State), FramesTaken s p →
     exec (.identify p.frame []) s =
       .next (replied p 1
         { status := .ok, code := 0x02,
           fields := be 2 4410 ++ [1, 4, 64] ++ be 2 4096 ++ [match p with | .a => 1 | .b => 2] } s)) ∧
  ∀ (p : Port) (s : State), FramesTaken s p →
    exec (.eventRead p.frame []) s =
        .next (replied p 1
          { status := .ok, code := 0x08,
            fields := be 4 (s.port p).view.pending.toNat ++ be 4 (s.port p).view.enable.toNat ++
              [(s.port p).view.length, yesNo (s.port p).view.holdoff.running, (s.port p).view.holdoff.remaining,
                yesNo (s.alertLine p)] } s) ∧
      (s.alertLine p = true ↔
        (∃ k, (s.port p).view.pending.getLsbD k = true ∧ (s.port p).view.enable.getLsbD k = true) ∧
          (s.port p).view.holdoff.running = false)

/-- R158, R177: PORT_RESET sets the sending port's own state and frees what it holds, and nothing else. The last bytes
shifted out are the model's record of its data line (log 19). -/
def Obligations.PortResetClearsOwnPort : Prop :=
  ∀ (p : Port) (s : State), FramesTaken s p →
    exec (.portReset p.frame []) s =
      .next { (s.setPort p
          { response := { status := .none, code := 0, fields := [] }
            shiftedOut := shiftOut (s.port p).response 1
            segCursor := 0
            wordCursor := 0
            results := Vector.ofFn fun n =>
              { next := match (s.lane n).ring.records.head? with
                  | some r => r.sequence
                  | none => (s.lane n).ring.nextSeq
                skipped := 0 }
            view :=
              { pending := 0, enable := 0, length := (s.port p).view.length,
                holdoff := { running := false, remaining := 0 } } }) with
        holders := s.holders.map fun h => if h = some p then none else h }

/-- R166: RESERVE makes the sender the holder of a resource that the other port does not hold, and is refused
otherwise without a trace. R167: RELEASE frees a resource that the sender holds and is refused with STATE otherwise;
RESERVATION_READ shows the 20 holders in order. -/
def Obligations.ReservationsAreTakenAndFreed : Prop :=
  (∀ (p : Port) (s : State), FramesTaken s p →
     (∀ r : Fin 20, s.holder r ≠ some (otherPort p) →
       exec (.reserve p.frame [BitVec.ofNat 8 r.val]) s =
         .next ((replied p 2
           { status := .ok, code := 0x04, fields := [BitVec.ofNat 8 r.val, portCode p] } s).setHolder r (some p))) ∧
     (∀ r : Fin 20, s.holder r = some (otherPort p) →
       exec (.reserve p.frame [BitVec.ofNat 8 r.val]) s =
         .next (replied p 2 { status := .reserved, code := 0x04, fields := [] } s)) ∧
     ∀ b : Byte, 19 < b.toNat →
       exec (.reserve p.frame [b]) s = .next (replied p 2 { status := .range, code := 0x04, fields := [] } s)) ∧
  ∀ (p : Port) (s : State), FramesTaken s p →
    (∀ r : Fin 20, s.holder r = some p →
      exec (.release p.frame [BitVec.ofNat 8 r.val]) s =
        .next ((replied p 2 { status := .ok, code := 0x05, fields := [BitVec.ofNat 8 r.val] } s).setHolder r none)) ∧
    (∀ r : Fin 20, s.holder r ≠ some p →
      exec (.release p.frame [BitVec.ofNat 8 r.val]) s =
        .next (replied p 2 { status := .state, code := 0x05, fields := [] } s)) ∧
    (∀ b : Byte, 19 < b.toNat →
      exec (.release p.frame [b]) s = .next (replied p 2 { status := .range, code := 0x05, fields := [] } s)) ∧
    exec (.reservationRead p.frame []) s =
      .next (replied p 1
        { status := .ok, code := 0x06, fields := (List.finRange 20).map fun r => holderCode (s.holder r) } s)

/-- R172: EVENT_CLEAR clears the named flags of the sender's pending set and starts, restarts or (H 0) stops its
hold-off timer; the line is released while the timer runs; the other view is not changed. R173, R174: EVENT_ENABLE
replaces the sender's enable set and HOLDOFF_SET its H; neither touches the timer. -/
def Obligations.EventCommandsSetTheView : Prop :=
  (∀ (p : Port) (s : State), FramesTaken s p →
     (∀ e : EventSet, ∃ t, exec (.eventClear p.frame (be 4 e.toNat)) s = .next t ∧
       t = (replied p 5
           { status := .ok, code := 0x09, fields := be 4 ((s.port p).view.pending &&& ~~~e).toNat } s).modPort p
         (fun v => { v with view := { v.view with
           pending := v.view.pending &&& ~~~e
           holdoff := if v.view.length = 0 then { running := false, remaining := 0 }
             else { running := true, remaining := v.view.length } } }) ∧
       ((s.port p).view.length ≠ 0 → t.alertLine p = false) ∧
       ((s.port p).view.length = 0 →
         t.alertLine p = ((s.port p).view.pending &&& ~~~e &&& (s.port p).view.enable != 0))) ∧
     ∀ args : List Byte, args.length = 4 → 2 ^ 26 ≤ ofBe args →
       exec (.eventClear p.frame args) s = .next (replied p 5 { status := .range, code := 0x09, fields := [] } s)) ∧
  ∀ (p : Port) (s : State), FramesTaken s p →
    (∀ e : EventSet,
      exec (.eventEnable p.frame (be 4 e.toNat)) s =
        .next ((replied p 5 { status := .ok, code := 0x0A, fields := be 4 e.toNat } s).modPort p fun v =>
          { v with view := { v.view with enable := e } })) ∧
    (∀ args : List Byte, args.length = 4 → 2 ^ 26 ≤ ofBe args →
      exec (.eventEnable p.frame args) s = .next (replied p 5 { status := .range, code := 0x0A, fields := [] } s)) ∧
    ∀ h : Byte,
      exec (.holdoffSet p.frame [h]) s =
        .next ((replied p 2 { status := .ok, code := 0x0B, fields := [h] } s).modPort p fun v =>
          { v with view := { v.view with length := h } })

/-! ### Segments and the Pattern Word Store (chapter 1) -/

/-- R15, R19: SEG_SELECT and WORD_SELECT set the sender's cursor, and refuse an index or address past the end. -/
def Obligations.SelectsSetTheCursors : Prop :=
  ∀ (p : Port) (s : State), FramesTaken s p →
    (∀ i : Fin 64,
      exec (.segSelect p.frame [BitVec.ofNat 8 i.val]) s =
        .next ((replied p 2 { status := .ok, code := 0x10, fields := [BitVec.ofNat 8 i.val] } s).modPort p fun v =>
          { v with segCursor := i.castSucc })) ∧
    (∀ b : Byte, 63 < b.toNat →
      exec (.segSelect p.frame [b]) s = .next (replied p 2 { status := .range, code := 0x10, fields := [] } s)) ∧
    (∀ a : Fin 4096,
      exec (.wordSelect p.frame (be 2 a.val)) s =
        .next ((replied p 3 { status := .ok, code := 0x14, fields := be 2 a.val } s).modPort p fun v =>
          { v with wordCursor := a.castSucc })) ∧
    ∀ args : List Byte, args.length = 2 → 4095 < ofBe args →
      exec (.wordSelect p.frame args) s = .next (replied p 3 { status := .range, code := 0x14, fields := [] } s)

/-- R16, R34: SEG_WRITE defines the segment at the cursor, takes VALID from every plan that reaches it, moves the
cursor and answers the record as stored; at cursor 64 or with a field out of range it is refused with RANGE, with
RESERVED when the other port holds the block, and with BUSY when the segment is in use. -/
def Obligations.SegWriteDefinesAndInvalidates : Prop :=
  ∀ (p : Port) (args : List Byte) (s : State), FramesTaken s p → args.length = 31 →
    (∀ (i : Fin 64) (sg : Segment), (s.port p).segCursor = i.castSucc → segmentOfBytes args = some sg →
      (s.holder (segResource i) ≠ some (otherPort p) → (s.seg i).useSet = 0 →
        exec (.segWrite p.frame args) s =
          .next { ((replied p 32 { status := .ok, code := 0x11, fields := segIndexCode i :: segmentBytes sg } s).modPort p
              fun v => { v with segCursor := i.succ }) with
            segs := s.segs.set i { record := some sg, useSet := 0 }
            lanes := s.lanes.map fun l =>
              if l.plan.reach.getLsbD i.val then
                { l with plan := { l.plan with valid := false, verdict := .changed, verdictSeg := i } }
              else l }) ∧
      (s.holder (segResource i) ≠ some (otherPort p) → (s.seg i).useSet ≠ 0 →
        exec (.segWrite p.frame args) s = .next (replied p 32 { status := .busy, code := 0x11, fields := [] } s)) ∧
      (s.holder (segResource i) = some (otherPort p) →
        exec (.segWrite p.frame args) s = .next (replied p 32 { status := .reserved, code := 0x11, fields := [] } s))) ∧
    ((s.port p).segCursor.val = 64 ∨ segmentOfBytes args = none →
      exec (.segWrite p.frame args) s = .next (replied p 32 { status := .range, code := 0x11, fields := [] } s))

/-- R2, R3, R180, Table 11-4: the record on the wire. A stored record comes back byte for byte; what SEG_WRITE stores
lies in the ranges of Table 1-1, and is what the bytes carry after the substitutions of R2 and R3; and these bytes, no
others, are out of range. -/
def Obligations.SegmentRecordsRoundTrip : Prop :=
  (∀ sg : Segment, SegmentInRange sg → (segmentBytes sg).length = 31 ∧ segmentOfBytes (segmentBytes sg) = some sg) ∧
  (∀ (bs : List Byte) (sg : Segment), segmentOfBytes bs = some sg → SegmentInRange sg) ∧
  (∀ (bs : List Byte) (sg : Segment), segmentOfBytes bs = some sg →
    sg.words.toNat = (if fieldAt bs 1 2 = 0 then 65536 else fieldAt bs 1 2) ∧ sg.reps = byteAt bs 3 ∧
    (byteAt bs 4 = 255 → sg.next = none) ∧
    (byteAt bs 4 ≠ 255 → ∃ i : Fin 64, i.val = (byteAt bs 4).toNat ∧ sg.next = some i) ∧
    sg.tail.toNat = (if byteAt bs 5 = 0 ∨ 8 < (byteAt bs 5).toNat then 8 else (byteAt bs 5).toNat) ∧
    sg.mask.toNat = fieldAt bs 6 8 ∧ (sg.counted = true ↔ byteAt bs 30 = 1) ∧
    (byteAt bs 0 = 0 → ∃ (o : PrbsOrder) (invert : Bool) (seed : BitVec 32), sg.kind = .prbs o invert seed ∧
      o.k = (byteAt bs 14).toNat ∧ (invert = true ↔ byteAt bs 15 = 1) ∧
      seed.toNat = if fieldAt bs 16 4 % 2 ^ o.k = 0 then 2 ^ o.k - 1 else fieldAt bs 16 4 % 2 ^ o.k) ∧
    (byteAt bs 0 = 1 → ∃ start stride rstep : BitVec 12, sg.kind = .list start stride rstep ∧
      start.toNat = fieldAt bs 14 2 % 4096 ∧ stride.toNat = fieldAt bs 16 2 % 4096 ∧
      rstep.toNat = fieldAt bs 18 2 % 4096) ∧
    (byteAt bs 0 = 2 → ∃ init inc : Word, sg.kind = .count init inc ∧ init.toNat = fieldAt bs 14 8 ∧
      inc.toNat = fieldAt bs 22 8) ∧
    (byteAt bs 0 = 3 → ∃ v : Word, sg.kind = .fill v ∧ v.toNat = fieldAt bs 14 8)) ∧
  ∀ bs : List Byte, segmentOfBytes bs = none ↔
    3 < (byteAt bs 0).toNat ∨ (63 < (byteAt bs 4).toNat ∧ (byteAt bs 4).toNat ≠ 255) ∨ 1 < (byteAt bs 30).toNat ∨
      ((byteAt bs 0).toNat = 0 ∧
        (¬ (byteAt bs 14).toNat ∈ [7, 9, 11, 15, 23, 31] ∨ 1 < (byteAt bs 15).toNat))

/-- R17, R18, R34: SEG_READ returns the record at the cursor and moves it; SEG_CLEAR makes a named segment undefined
and takes VALID from every plan that reaches it, without touching the cursor, and is refused with RANGE, RESERVED or
BUSY. -/
def Obligations.SegReadAndSegClear : Prop :=
  ∀ (p : Port) (s : State), FramesTaken s p →
    (∀ i : Fin 64, (s.port p).segCursor = i.castSucc →
      exec (.segRead p.frame []) s =
        .next ((replied p 1
          { status := .ok, code := 0x12,
            fields := segIndexCode i ::
              match s.record i with
              | some sg => 1 :: segmentBytes sg ++ [(s.seg i).useSet]
              | none => List.replicate 33 0 } s).modPort p fun v =>
          { v with segCursor := i.succ })) ∧
    ((s.port p).segCursor.val = 64 →
      exec (.segRead p.frame []) s = .next (replied p 1 { status := .range, code := 0x12, fields := [] } s)) ∧
    (∀ i : Fin 64, s.holder (segResource i) ≠ some (otherPort p) → (s.seg i).useSet = 0 →
      exec (.segClear p.frame [BitVec.ofNat 8 i.val]) s =
        .next { (replied p 2 { status := .ok, code := 0x13, fields := [BitVec.ofNat 8 i.val] } s) with
          segs := s.segs.set i { record := none, useSet := 0 }
          lanes := s.lanes.map fun l =>
            if l.plan.reach.getLsbD i.val then
              { l with plan := { l.plan with valid := false, verdict := .changed, verdictSeg := i } }
            else l }) ∧
    (∀ i : Fin 64, s.holder (segResource i) ≠ some (otherPort p) → (s.seg i).useSet ≠ 0 →
      exec (.segClear p.frame [BitVec.ofNat 8 i.val]) s =
        .next (replied p 2 { status := .busy, code := 0x13, fields := [] } s)) ∧
    (∀ i : Fin 64, s.holder (segResource i) = some (otherPort p) →
      exec (.segClear p.frame [BitVec.ofNat 8 i.val]) s =
        .next (replied p 2 { status := .reserved, code := 0x13, fields := [] } s)) ∧
    ∀ b : Byte, 63 < b.toNat →
      exec (.segClear p.frame [b]) s = .next (replied p 2 { status := .range, code := 0x13, fields := [] } s)

/-- R11, R20: WORD_WRITE puts the words that fit at the cursor's addresses, leaves every other address as it was,
moves the cursor and answers the count; a word block of the other port in its way refuses it whole; a length that does
not agree with the count is refused with FRAME. The premise on the store's canonical form is the model's (log 17) and
an invariant, stated in StoredDataStaysInRange. -/
def Obligations.WordWriteStoresItsWords : Prop :=
  (∀ (p : Port) (ws : List Word) (s : State), FramesTaken s p → StoreCanonical s → ws.length ≤ 255 →
     ((∀ a : Fin 4096, (s.port p).wordCursor.val ≤ a.val → a.val < (s.port p).wordCursor.val + ws.length →
         s.holder (wordResource a) ≠ some (otherPort p)) →
       ∃ t, exec (.wordWrite p.frame (BitVec.ofNat 8 ws.length :: ws.flatMap fun w => be 8 w.toNat)) s = .next t ∧
         t = { ((replied p (2 + 8 * ws.length)
             { status := .ok, code := 0x15,
               fields := be 1 (min ws.length (4096 - (s.port p).wordCursor.val)) ++
                 be 2 (min ((s.port p).wordCursor.val + ws.length) 4096) } s).modPort p fun v =>
             { v with wordCursor := Fin.ofNat 4097 (min (v.wordCursor.val + ws.length) 4096) }) with
           store := t.store } ∧
         ∀ a : Fin 4096, storeRead t.store a.val =
           if (s.port p).wordCursor.val ≤ a.val ∧ a.val < (s.port p).wordCursor.val + ws.length then
             ws.getD (a.val - (s.port p).wordCursor.val) 0
           else storeRead s.store a.val) ∧
     ((∃ a : Fin 4096, (s.port p).wordCursor.val ≤ a.val ∧ a.val < (s.port p).wordCursor.val + ws.length ∧
         s.holder (wordResource a) = some (otherPort p)) →
       exec (.wordWrite p.frame (BitVec.ofNat 8 ws.length :: ws.flatMap fun w => be 8 w.toNat)) s =
         .next (replied p (2 + 8 * ws.length) { status := .reserved, code := 0x15, fields := [] } s))) ∧
  ∀ (p : Port) (args : List Byte) (s : State), FramesTaken s p → frameLengthFits (.wordWrite p.frame args) = false →
    exec (.wordWrite p.frame args) s = .next (frameRefused p (1 + args.length) 0x15 s)

/-- R21: WORD_READ returns the words that the store holds from the cursor on, as many as fit, and moves the cursor
over them; asked for words at the end of the store it answers EMPTY. -/
def Obligations.WordReadReturnsStoredWords : Prop :=
  ∀ (p : Port) (n : Byte) (s : State), FramesTaken s p →
    exec (.wordRead p.frame [n]) s =
      .next ((replied p 2
        { status := if n ≠ 0 ∧ (s.port p).wordCursor.val = 4096 then .empty else .ok
          code := 0x16
          fields := be 1 (min n.toNat (4096 - (s.port p).wordCursor.val)) ++
            be 2 (min ((s.port p).wordCursor.val + n.toNat) 4096) ++
            (List.range (min n.toNat (4096 - (s.port p).wordCursor.val))).flatMap fun k =>
              be 8 (storeRead s.store ((s.port p).wordCursor.val + k)).toNat } s).modPort p fun v =>
        { v with wordCursor := Fin.ofNat 4097 (min (v.wordCursor.val + n.toNat) 4096) })

/-! ### Lane plans (chapter 2) -/

/-- R30, R31: PLAN_SET replaces the nine settable fields of a plan that is not in use and validates it; PLAN_CHECK
validates the stored fields; the reply gives the outcome. -/
def Obligations.PlanSetAndCheckValidate : Prop :=
  ∀ (p : Port) (n : Lane) (s : State), LaneOpen s p n → (s.lane n).gen.state = .stopped →
    (∀ c : Lane, (s.lane c).checker.config.planLane = n → (s.lane c).checker.state = .off) →
    (∀ (sent v : Plan),
      v = validated s.record { (s.lane n).plan with
          mode := sent.mode, first := sent.first, anchor := sent.anchor, trigger := sent.trigger,
          passCount := sent.passCount, pause := sent.pause, passStep := sent.passStep,
          wordLimit := sent.wordLimit, idleWord := sent.idleWord } →
      exec (.planSet p.frame (laneCode n :: planBytes sent)) s =
        .next ((replied p 24
          { status := .ok, code := 0x20,
            fields := [laneCode n, yesNo v.valid, verdictCode v.verdict, segIndexCode v.verdictSeg] } s).modLane n
          fun l => { l with plan := v })) ∧
    ∀ v : Plan, v = validated s.record (s.lane n).plan →
      exec (.planCheck p.frame [laneCode n]) s =
        .next ((replied p 2
          { status := .ok, code := 0x21,
            fields := [laneCode n, yesNo v.valid, verdictCode v.verdict, segIndexCode v.verdictSeg] } s).modLane n
          fun l => { l with plan := v })

/-- R26: the reach set that a validation records is the chain of next links from first, or first alone in FREE-RUN
mode. R27, R28: the tests of a validation, in order: the first that fails gives the verdict and its segment, and VALID
is set when none does. -/
def Obligations.ValidationFollowsItsTests : Prop :=
  (∀ (record : Fin 64 → Option Segment) (pl : Plan) (i : Fin 64),
     (pl.mode = .sequence →
       ((validated record pl).reach.getLsbD i.val = true ↔ Relation.ReflTransGen (Links record) pl.first i)) ∧
     (pl.mode = .freeRun → ((validated record pl).reach.getLsbD i.val = true ↔ i = pl.first))) ∧
  ∀ (record : Fin 64 → Option Segment) (pl v : Plan), v = validated record pl →
    (pl.mode = .sequence →
      (∀ u : Fin 64, Relation.ReflTransGen (Links record) pl.first u → record u = none →
        v.valid = false ∧ v.verdict = .undefined ∧ v.verdictSeg = u) ∧
      ((∀ u : Fin 64, Relation.ReflTransGen (Links record) pl.first u → (record u).isSome = true) →
        (¬ Relation.ReflTransGen (Links record) pl.first pl.anchor →
          v.valid = false ∧ v.verdict = .anchorUnreached ∧ v.verdictSeg = pl.anchor) ∧
        ∀ sg : Segment, Relation.ReflTransGen (Links record) pl.first pl.anchor → record pl.anchor = some sg →
          (sg.kind.anchors = false → v.valid = false ∧ v.verdict = .anchorKind ∧ v.verdictSeg = pl.anchor) ∧
          (sg.kind.anchors = true →
            ((if sg.words.toNat = 1 then sg.mask &&& tailMask sg.tail else sg.mask) = 0 →
              v.valid = false ∧ v.verdict = .anchorMask ∧ v.verdictSeg = pl.anchor) ∧
            ((if sg.words.toNat = 1 then sg.mask &&& tailMask sg.tail else sg.mask) ≠ 0 →
              v.valid = true ∧ v.verdict = .valid ∧ v.verdictSeg = 0)))) ∧
    (pl.mode = .freeRun →
      (record pl.first = none → v.valid = false ∧ v.verdict = .undefined ∧ v.verdictSeg = pl.first) ∧
      ∀ sg : Segment, record pl.first = some sg →
        (sg.kind.isPrbs = false → v.valid = false ∧ v.verdict = .notPrbs ∧ v.verdictSeg = pl.first) ∧
        (sg.kind.isPrbs = true → v.valid = true ∧ v.verdict = .valid ∧ v.verdictSeg = 0))

/-! ### Words (chapter 1) and generation (chapter 3) -/

/-- R5 to R9: the words of the four kinds. A PRBS visit is one unbroken run of the recurrence from the seed, most
significant bit first, complemented when invert is set. R8, R10, R27, R53: the taps of the six orders, the bits that
an effective mask keeps, the kinds that an anchor may have, and the seed of a FREE-RUN run. -/
def Obligations.SegmentsFormTheirWords : Prop :=
  ((∀ o : PrbsOrder, (o.k, o.a) ∈ [(7, 6), (9, 5), (11, 9), (15, 14), (23, 18), (31, 28)]) ∧
   (∀ (sg : Segment) (i : BitVec 16) (j : Nat), j < 64 →
     (effectiveMask sg i).getLsbD j =
       (sg.mask.getLsbD j && (decide (i.toNat + 1 ≠ sg.words.toNat) || decide (64 ≤ j + 8 * sg.tail.toNat)))) ∧
   (∀ (tail : BitVec 4) (j : Nat), j < 64 → (tailMask tail).getLsbD j = decide (64 ≤ j + 8 * tail.toNat)) ∧
   (∀ k : SegKind, (k.anchors = true ↔ (∃ o invert seed, k = .prbs o invert seed) ∨
       ∃ start stride rstep, k = .list start stride rstep) ∧
     (k.isPrbs = true ↔ ∃ o invert seed, k = .prbs o invert seed)) ∧
   ∀ (s : State) (pl : Plan) (sg : Segment) (o : PrbsOrder) (invert : Bool) (seed : BitVec 32),
     s.record pl.first = some sg → sg.kind = .prbs o invert seed → freeRunSeed s pl = seed) ∧
  (∀ (o : PrbsOrder) (seed : BitVec 32) (m : Nat),
    prbsStreamBit o seed (m + o.k) = (prbsStreamBit o seed m ^^ prbsStreamBit o seed (m + o.k - o.a))) ∧
  ∀ (store : Memory) (sg : Segment) (step : BitVec 12) (q : Pos),
    (∀ v, sg.kind = .fill v → formWord store sg step q = v) ∧
    (∀ init inc, sg.kind = .count init inc →
      (formWord store sg step q).toNat =
        (init.toNat + (q.r.toNat * sg.words.toNat + q.i.toNat) * inc.toNat) % 2 ^ 64) ∧
    (∀ start stride rstep, sg.kind = .list start stride rstep →
      formWord store sg step q =
        storeRead store ((start.toNat + ((q.p - 1).toNat * step.toNat) % 4096 + q.r.toNat * rstep.toNat +
          q.i.toNat * stride.toNat) % 4096)) ∧
    ∀ o invert seed, sg.kind = .prbs o invert seed → ∀ j, j < 64 →
      (formWord store sg step q).getLsbD (63 - j) =
        (invert ^^ prbsStreamBit o seed (o.k + 64 * (q.r.toNat * sg.words.toNat + q.i.toNat) + j))

/-- R39: LANE_START with the generator STOPPED and the plan VALID marks the reach set, clears the run history and the
signature, and arms the generator. -/
def Obligations.LaneStartArmsTheGenerator : Prop :=
  ∀ (p : Port) (n : Lane) (s : State), LaneOpen s p n → (s.lane n).gen.state = .stopped →
    (s.lane n).plan.valid = true →
    exec (.laneStart p.frame [laneCode n]) s =
      .next { ((replied p 2 { status := .ok, code := 0x28, fields := [laneCode n, 1] } s).modLane n fun l =>
          { l with
            gen :=
              { state := .armed, pendingTrigger := false,
                pos := { seg := l.plan.first, r := 0, i := 0, p := 0, pause := 0 },
                wordsEmitted := 0, passesDone := 0, runsCompleted := 0, prbs := l.gen.prbs }
            sig := { reg := 0, pass := none } }) with
        segs := Vector.ofFn fun i =>
          if (s.lane n).plan.reach.getLsbD i.val then
            { s.seg i with useSet := (s.seg i).useSet ||| BitVec.ofNat 8 (2 ^ n.val) }
          else s.seg i }

/-- R41, R42, R43: a trigger begins a run in ARMED and pends in a run, by LANE_TRIGGER or by a matching edge; an edge
that does not match, or that finds the generator STOPPED, moves the line's level alone. -/
def Obligations.TriggersBeginRunsOrPend : Prop :=
  (∀ (p : Port) (n : Lane) (s : State), LaneOpen s p n →
    ((s.lane n).gen.state = .armed →
      exec (.laneTrigger p.frame [laneCode n]) s =
        .next ((replied p 2 { status := .ok, code := 0x29, fields := [laneCode n, 0] } s).modLane n
          (begunRun (freeRunSeed s (s.lane n).plan)))) ∧
    ((s.lane n).gen.state = .running ∨ (s.lane n).gen.state = .pausing →
      ((s.lane n).gen.pendingTrigger = false →
        exec (.laneTrigger p.frame [laneCode n]) s =
          .next ((replied p 2 { status := .ok, code := 0x29, fields := [laneCode n, 1] } s).modLane n fun l =>
            { l with gen := { l.gen with pendingTrigger := true } })) ∧
      ((s.lane n).gen.pendingTrigger = true →
        exec (.laneTrigger p.frame [laneCode n]) s =
          .next (replied p 2 { status := .ok, code := 0x29, fields := [laneCode n, 2] } s)))) ∧
  (∀ (n : Lane) (level : Level) (s : State),
    ((s.lane n).trigLine = level → exec (.trigEdge n level) s = .next s) ∧
    ((s.lane n).trigLine ≠ level →
      ((s.lane n).gen.state = .stopped ∨ (s.lane n).plan.trigger.matchesEdge level = false →
        exec (.trigEdge n level) s = .next (s.modLane n fun l => { l with trigLine := level })) ∧
      ((s.lane n).plan.trigger.matchesEdge level = true →
        ((s.lane n).gen.state = .armed →
          exec (.trigEdge n level) s =
            .next (s.modLane n fun l => { begunRun (freeRunSeed s l.plan) l with trigLine := level })) ∧
        ((s.lane n).gen.state = .running ∨ (s.lane n).gen.state = .pausing →
          exec (.trigEdge n level) s =
            .next (s.modLane n fun l =>
              { l with trigLine := level, gen := { l.gen with pendingTrigger := true } }))))) ∧
  ∀ (t : PlanTrigger) (level : Level), t.matchesEdge level = true ↔
    (t = .trigRise ∧ level = .high) ∨ (t = .trigFall ∧ level = .low) ∨ t = .trigBoth

/-- R55: LANE_HALT is taken in every state, answers the state it found, frees the segments and stops the generator;
its counters, position and signatures stay. -/
def Obligations.LaneHaltStopsTheGenerator : Prop :=
  ∀ (p : Port) (n : Lane) (s : State), LaneOpen s p n →
    ((s.lane n).gen.state = .stopped →
      exec (.laneHalt p.frame [laneCode n]) s =
        .next (replied p 2 { status := .ok, code := 0x2A, fields := [laneCode n, 0] } s)) ∧
    ((s.lane n).gen.state ≠ .stopped →
      exec (.laneHalt p.frame [laneCode n]) s =
        .next { ((replied p 2
            { status := .ok, code := 0x2A, fields := [laneCode n, genStateCode (s.lane n).gen.state] } s).modLane n
            fun l => { l with gen := { l.gen with state := .stopped, pendingTrigger := false } }) with
          segs := s.segs.map fun g => { g with useSet := g.useSet &&& ~~~(BitVec.ofNat 8 (2 ^ n.val)) } })

/-- R46, R53, R57, R62, R68, R70, R71: a RUNNING slot short of the word limit and of its pass's end: the pattern word
is formed, injected when it is counted, folded, counted into words emitted and placed on the bus, and the walk goes
on; in FREE-RUN mode the recurrence goes on and the position stays. The word is offered to the looped checkers, and to
nobody when none is routed to the loop. -/
def Obligations.RunningSlotEmitsAndWalksOn : Prop :=
  (∀ (n : Lane) (w : Word) (s : State), NoLoop s n → offered n w s = .next s) ∧
  ∀ (n : Lane) (s t : State) (w flips : Word) (counted : Bool) (prbs : BitVec 32) (used : InjectUnit),
    (s.lane n).gen.state = .running → ShortOfLimit s n → PatternWordIs s n w counted prbs →
    FlipsAre s n counted flips used → t = emitted n (w ^^^ flips) flips used prbs s →
    (∀ (sg : Segment) (q : Pos), (s.lane n).plan.mode = .sequence → s.record (s.lane n).gen.pos.seg = some sg →
      Onward sg (s.lane n).gen.pos q → ∀ u, u = (t.modLane n fun l => { l with gen := { l.gen with pos := q } }) →
      exec (.transmitSlot n) s = offered n (w ^^^ flips) u ∧ (NoLoop s n → exec (.transmitSlot n) s = .next u)) ∧
    ((s.lane n).plan.mode = .freeRun →
      exec (.transmitSlot n) s = offered n (w ^^^ flips) t ∧ (NoLoop s n → exec (.transmitSlot n) s = .next t))

/-- R47, R48, R49, R72: the last word of a pass, short of the word limit, injected or not, latches the pass signature
and counts the pass; then the next pass, its pause, a seamless run, or ARMED with RUN_DONE follows, and the word is
offered to the looped checkers. -/
def Obligations.LastWordEndsThePass : Prop :=
  ∀ (n : Lane) (s t u : State) (w flips : Word) (counted : Bool) (prbs : BitVec 32) (used : InjectUnit) (sg : Segment)
    (ended : LaneState), (s.lane n).gen.state = .running → ShortOfLimit s n → PatternWordIs s n w counted prbs →
    FlipsAre s n counted flips used → t = emitted n (w ^^^ flips) flips used prbs s →
    (s.lane n).plan.mode = .sequence → s.record (s.lane n).gen.pos.seg = some sg → AtPassEnd sg (s.lane n).gen.pos →
    ended = { t.lane n with
      gen := { (t.lane n).gen with passesDone := (s.lane n).gen.passesDone + 1 }
      sig :=
        { reg := foldWord (s.lane n).sig.reg (w ^^^ flips)
          pass := some
            { value := foldWord (s.lane n).sig.reg (w ^^^ flips), pass := (s.lane n).gen.pos.p,
              run := (s.lane n).gen.runsCompleted + 1 } } } →
    u = (if (s.lane n).plan.passCount = 0 ∨ ended.gen.passesDone.toNat < (s.lane n).plan.passCount.toNat then
        t.setLane n
          { ended with gen := { ended.gen with
            state := if ended.plan.pause = 0 then .running else .pausing
            pos := { seg := ended.plan.first, r := 0, i := 0, p := ended.gen.pos.p + 1,
                     pause := ended.plan.pause } } }
      else if (s.lane n).gen.pendingTrigger then
        t.setLane n (begunRun (freeRunSeed s ended.plan)
          { ended with gen := { ended.gen with
            pendingTrigger := false, runsCompleted := ended.gen.runsCompleted + 1 } })
      else
        withEvent (.runDone n) (t.setLane n
          { ended with gen := { ended.gen with
            state := .armed
            pos := { seg := ended.plan.first, r := 0, i := 0, p := 0, pause := 0 }
            runsCompleted := ended.gen.runsCompleted + 1 } })) →
    exec (.transmitSlot n) s = offered n (w ^^^ flips) u ∧ (NoLoop s n → exec (.transmitSlot n) s = .next u)

/-- R48, R51: a slot of a pause carries the idle word and uses up one pause word; the slot that reaches the word limit
ends the run at once, whatever it carried, in either plan mode (R54), with no latch, no pass counted and no pending
trigger left. R37, R57, R76: outside a run a slot carries the plan's idle word, unfolded and uncounted. Each word is
offered to the looped checkers, and to nobody when none is routed to the loop. -/
def Obligations.IdleAndPauseSlotsAndTheWordLimit : Prop :=
  (∀ (n : Lane) (s u : State), (s.lane n).gen.state = .pausing →
     ((s.lane n).gen.pos.pause ≠ 0 → ShortOfLimit s n →
       u = (s.modLane n fun l =>
         { l with
           gen := { l.gen with
             state := if l.gen.pos.pause = 1 then .running else .pausing
             pos := { l.gen.pos with pause := l.gen.pos.pause - 1 }
             wordsEmitted := l.gen.wordsEmitted + 1 }
           txBus := l.plan.idleWord }) →
       exec (.transmitSlot n) s = offered n (s.lane n).plan.idleWord u ∧
         (NoLoop s n → exec (.transmitSlot n) s = .next u)) ∧
     ((s.lane n).plan.wordLimit ≠ 0 → (s.lane n).gen.wordsEmitted.toNat + 1 = (s.lane n).plan.wordLimit.toNat →
       u = withEvent (.runDone n) (s.modLane n fun l =>
         { l with gen := endedRun l.plan l.gen, txBus := l.plan.idleWord }) →
       exec (.transmitSlot n) s = offered n (s.lane n).plan.idleWord u ∧
         (NoLoop s n → exec (.transmitSlot n) s = .next u))) ∧
  (∀ (n : Lane) (s u : State) (w flips : Word) (counted : Bool) (prbs : BitVec 32) (used : InjectUnit),
     (s.lane n).gen.state = .running → (s.lane n).plan.wordLimit ≠ 0 →
     (s.lane n).gen.wordsEmitted.toNat + 1 = (s.lane n).plan.wordLimit.toNat → PatternWordIs s n w counted prbs →
     FlipsAre s n counted flips used →
     u = withEvent (.runDone n) ((emitted n (w ^^^ flips) flips used prbs s).modLane n fun l =>
       { l with gen := { endedRun l.plan (s.lane n).gen with prbs := prbs } }) →
     exec (.transmitSlot n) s = offered n (w ^^^ flips) u ∧ (NoLoop s n → exec (.transmitSlot n) s = .next u)) ∧
  ∀ (n : Lane) (s u : State), (s.lane n).gen.state = .stopped ∨ (s.lane n).gen.state = .armed →
    u = (s.modLane n fun l => { l with txBus := l.plan.idleWord }) →
    exec (.transmitSlot n) s = offered n (s.lane n).plan.idleWord u ∧ (NoLoop s n → exec (.transmitSlot n) s = .next u)

/-! ### Injection and signatures (chapter 4) -/

/-- R57, R62, R68, R70, R71: every RUNNING slot that no looped checker hears, under either plan mode, in the middle of
a pass, at its end or at the word limit: what leaves on the bus is the pattern word with the flipped bits, and that is
what is folded; the flipped bits are added to the totals and credited to every associated interval that counts. A word
that is not counted passes as it is. -/
def Obligations.CountedSlotIsInjected : Prop :=
  ∀ (n : Lane) (s : State) (w flips : Word) (counted : Bool) (prbs : BitVec 32) (used : InjectUnit),
    NoLoop s n → (s.lane n).gen.state = .running → PatternWordIs s n w counted prbs → FlipsAre s n counted flips used →
    ∃ t, exec (.transmitSlot n) s = .next t ∧
      (t.lane n).txBus = w ^^^ flips ∧ (t.lane n).sig.reg = foldWord (s.lane n).sig.reg (w ^^^ flips) ∧
      (counted = false → (t.lane n).txBus = w ∧ (t.lane n).inject.setting = (s.lane n).inject.setting) ∧
      (t.lane n).inject.setting = used.setting ∧
      (t.lane n).inject.bits.toNat = min ((s.lane n).inject.bits.toNat + ones flips) (2 ^ 48 - 1) ∧
      (t.lane n).inject.words.toNat =
        min ((s.lane n).inject.words.toNat + if ones flips = 0 then 0 else 1) (2 ^ 40 - 1) ∧
      (∀ m : Lane, (t.lane m).acc.interval.injected.toNat =
        if (s.lane m).route.associate = some n ∧ counting (s.lane m) = true then
          min ((s.lane m).acc.interval.injected.toNat + ones flips) (2 ^ 32 - 1)
        else (s.lane m).acc.interval.injected.toNat) ∧
      (∀ m : Lane, m ≠ n → t.lane m = { s.lane m with acc := (t.lane m).acc }) ∧
      (∀ m : Lane, (t.lane m).acc = { (s.lane m).acc with interval := { (s.lane m).acc.interval with
        injected := (t.lane m).acc.interval.injected } }) ∧
      (t.lane n).plan = (s.lane n).plan ∧ (t.lane n).route = (s.lane n).route ∧
      (t.lane n).checker = (s.lane n).checker ∧ (t.lane n).timer = (s.lane n).timer ∧
      (t.lane n).ring = (s.lane n).ring ∧ t.segs = s.segs ∧ t.store = s.store ∧ t.holders = s.holders

/-- R63, R64, R65: which bits each setting flips in an eligible word, and what it leaves of the setting. R71: a word
is folded bit by bit from bit 63 down, each bit shifting the register toward s30 with feedback s30, s2 and the bit. -/
def Obligations.InjectedAndFoldedBits : Prop :=
  ((∀ u : InjectUnit, u.setting = .off → injectEligible u = (0, u)) ∧
   (∀ (u : InjectUnit) (b : BitVec 6), u.setting = .single b →
     (injectEligible u).2 = { u with setting := .off } ∧
     ∀ j, (injectEligible u).1.getLsbD j = decide (j = b.toNat)) ∧
   (∀ (u : InjectUnit) (b : BitVec 6) (len : BitVec 7), u.setting = .burst b len → 1 ≤ len.toNat →
     (injectEligible u).2 = { u with setting := .off } ∧
     (∀ j, (injectEligible u).1.getLsbD j = decide (j ≤ b.toNat ∧ b.toNat < j + len.toNat)) ∧
     ones (injectEligible u).1 = min len.toNat (b.toNat + 1)) ∧
   ∀ (u : InjectUnit) (b : BitVec 6) (period : BitVec 24), u.setting = .periodic b period →
     (u.periodCount.toNat + 1 = period.toNat →
       (injectEligible u).2 = { u with periodCount := 0 } ∧
       ∀ j, (injectEligible u).1.getLsbD j = decide (j = b.toNat)) ∧
     (u.periodCount.toNat + 1 ≠ period.toNat → injectEligible u = (0, { u with periodCount := u.periodCount + 1 }))) ∧
  (∀ (reg : BitVec 31) (d : Bool) (j : Nat), j < 31 →
    (foldBit reg d).getLsbD j =
      if j = 0 then (reg.getLsbD 30 ^^ reg.getLsbD 2 ^^ d) else reg.getLsbD (j - 1)) ∧
  (∀ (reg : BitVec 31) (w : Word),
    foldWord reg w = (List.range 64).foldl (fun r k => foldBit r (w.getLsbD (63 - k))) reg) ∧
  ∀ (x y : BitVec 31) (v w : Word), foldWord (x ^^^ y) (v ^^^ w) = foldWord x v ^^^ foldWord y w

/-- R69, R73, R113: the clears of a lane answer what stood and zero it, and touch nothing else. R66, R78, R80, R118:
the setting commands replace their settings as stored and answer them. CHECK_CONFIG zeroes both sets of counts when
the overflow mode changes. The free bytes of the replies, the order of TOTALS_CLEAR's counts and the form of an
associate of NONE are the model's (logs 8, 9, 11, 32). -/
def Obligations.ClearsAndSettingsTakeEffect : Prop :=
  (∀ (p : Port) (n : Lane) (s : State), LaneOpen s p n →
     exec (.injectTotalsClear p.frame [laneCode n]) s =
         .next ((replied p 2
           { status := .ok, code := 0x32,
             fields := laneCode n :: be 6 (s.lane n).inject.bits.toNat ++ be 5 (s.lane n).inject.words.toNat } s).modLane n
           fun l => { l with inject := { l.inject with bits := 0, words := 0 } }) ∧
       exec (.sigClear p.frame [laneCode n]) s =
         .next ((replied p 2 { status := .ok, code := 0x33, fields := [laneCode n] } s).modLane n fun l =>
           { l with sig := { reg := 0, pass := none } }) ∧
       exec (.totalsClear p.frame [laneCode n]) s =
         .next ((replied p 2
           { status := .ok, code := 0x41, fields := laneCode n :: runTotalsBytes (s.lane n).acc.run } s).modLane n
           fun l => { l with acc := { l.acc with run := Reset.runTotals, runLatch := false } })) ∧
  ∀ (p : Port) (n : Lane) (s : State), LaneOpen s p n →
    (∀ (kind bit len p2 p1 p0 : Byte) (x : Injection), injectionOfBytes kind bit len (ofBe [p2, p1, p0]) = some x →
      exec (.injectSet p.frame [laneCode n, kind, bit, len, p2, p1, p0]) s =
        .next (((replied p 8
          { status := .ok, code := 0x30, fields := laneCode n :: injectionBytes x (freeBytes s 5) } s).modLane n fun l =>
          { l with inject := { l.inject with setting := x, periodCount := 0 } }).useFree 5)) ∧
    (∀ (kind m g : Byte) (r : Route), routeOfBytes kind m g = some r → (s.lane n).checker.state = .off →
      exec (.routeSet p.frame [laneCode n, kind, m, g]) s =
        .next ((replied p 5 { status := .ok, code := 0x38, fields := laneCode n :: routeBytes r } s).modLane n fun l =>
          { l with route := r })) ∧
    (∀ (plan v t mode : Byte) (c : CheckConfig), checkConfigOfBytes plan v t mode = some c →
      (s.lane n).checker.state = .off →
      exec (.checkConfig p.frame [laneCode n, plan, v, t, mode]) s =
        .next ((replied p 6 { status := .ok, code := 0x39, fields := laneCode n :: checkConfigBytes c } s).modLane n
          fun l =>
          { l with
            checker := { l.checker with config := c }
            acc := if l.checker.config.overflow = c.overflow then l.acc
              else { run := Reset.runTotals, interval := Reset.intervalAcc, runLatch := false,
                     intervalLatch := false } })) ∧
    ∀ (rest : List Byte) (c : TimerConfig), rest.length = 15 → timerConfigOfBytes n rest = some c →
      (s.lane n).timer.state = .stop →
      exec (.gateConfig p.frame (laneCode n :: rest)) s =
        .next (((replied p 17
          { status := .ok, code := 0x48,
            fields := laneCode n :: timerConfigBytes c (Config.freeByte s.freeCount) } s).modLane n fun l =>
          { l with timer := { l.timer with config := c } }).useFree (chainFree c.trigger))

/-! ### Checkers (chapters 5 and 6) -/

/-- R82: CHECK_START with the checker OFF and its plan VALID marks the plan's reach set, zeroes both sets of counts
and enters SEARCH in the plan's mode. -/
def Obligations.CheckStartEntersSearch : Prop :=
  ∀ (p : Port) (n : Lane) (s : State), LaneOpen s p n → (s.lane n).checker.state = .off →
    (checkerPlan s n).valid = true →
    exec (.checkStart p.frame [laneCode n]) s =
      .next { ((replied p 2 { status := .ok, code := 0x3A, fields := [laneCode n, 1] } s).modLane n fun l =>
          { l with
            checker :=
              { config := l.checker.config, state := .search, mode := (checkerPlan s n).mode, progress := 0, slip := 0,
                pos := { seg := 0, r := 0, i := 0, p := 0, pause := 0 }, prbs := l.checker.prbs }
            acc := { run := Reset.runTotals, interval := Reset.intervalAcc, runLatch := false,
                     intervalLatch := false } }) with
        segs := Vector.ofFn fun i =>
          if (checkerPlan s n).reach.getLsbD i.val then
            { s.seg i with useSet := (s.seg i).useSet ||| BitVec.ofNat 8 (2 ^ (4 + n.val)) }
          else s.seg i }

/-- R84, R126: CHECK_STOP is taken in every state: it answers the state it found, closes a running interval with cause
CHECKER_STOP into STOP, frees the segments and enters OFF. What the close does is CloseMakesItsRecord's. -/
def Obligations.CheckStopEntersOff : Prop :=
  ∀ (p : Port) (n : Lane) (s closed : State), LaneOpen s p n →
    closed = (if (s.lane n).timer.state = .run then
        (closeInterval s n .checkerStop none).modLane n stopped
      else s) →
    ∃ t, exec (.checkStop p.frame [laneCode n]) s = .next t ∧
      t.segs = s.segs.map (fun g => { g with useSet := g.useSet &&& ~~~(BitVec.ofNat 8 (2 ^ (4 + n.val))) }) ∧
      (∀ m : Lane, t.lane m =
        if m = n then
          { closed.lane n with checker :=
            { (s.lane n).checker with state := .off, progress := 0, slip := 0,
                                      pos := { seg := 0, r := 0, i := 0, p := 0, pause := 0 } } }
        else closed.lane m) ∧
      (∀ q : Port, t.port q =
        if q = p then
          { closed.port p with
            response :=
              { status := .ok, code := 0x3B,
                fields := [laneCode n, checkStateCode (s.lane n).checker.state,
                  yesNo ((s.lane n).timer.state == .run)] }
            shiftedOut := shiftOut (s.port p).response 2 }
        else closed.port q) ∧
      t.store = s.store ∧ t.holders = s.holders ∧ t.resetPhase = s.resetPhase ∧ t.freeCount = s.freeCount ∧
      t.pending = s.pending

/-- R89, R92: a word tested in SEARCH. Under a SEQUENCE plan a match with the anchor word under the match mask enters
VERIFY past the anchor; under a FREE-RUN plan a word of the recurrence does. A word that fails leaves everything. R76,
R115: a source is a receive bus, whose words are RECEIVE_WORD's, or a loop (`arrives`), and every checker whose route
names it takes each of its words, each by itself: lane n stands after the word as checker n alone would leave it, and
neither checker affects the other, but for the chain offer of an interval that a word closes (log 7). A word whose
source feeds only OFF checkers, or none, changes nothing (R76, R81). That the checkers take the word in the order of
their numbers is the model's (logs 21, 23). -/
def Obligations.WordsOutsideALockAreTested : Prop :=
  (∀ (n : Lane) (w : Word) (s : State) (sg : Segment), (s.lane n).checker.state = .search →
     (∀ (mask anchor : Word) (q : Pos), (s.lane n).checker.mode = .sequence →
       s.record (checkerPlan s n).anchor = some sg →
       mask = (if sg.words.toNat = 1 then sg.mask &&& tailMask sg.tail else sg.mask) →
       anchor = formWord s.store sg (checkerPlan s n).passStep
         { seg := (checkerPlan s n).anchor, r := 0, i := 0, p := 1, pause := 0 } →
       ReferenceNext (checkerPlan s n) sg { seg := (checkerPlan s n).anchor, r := 0, i := 0, p := 1, pause := 0 } q →
       (w &&& mask ≠ anchor &&& mask → Handles s n w (.next s)) ∧
       (w &&& mask = anchor &&& mask →
         Handles s n w
           (.next (s.modLane n fun l =>
             { l with checker := { l.checker with state := .verify, progress := 0, pos := q } })))) ∧
     ∀ (o : PrbsOrder) (invert : Bool) (seed : BitVec 32) (c : Word), (s.lane n).checker.mode = .freeRun →
       s.record (checkerPlan s n).first = some sg → sg.kind = .prbs o invert seed →
       c = (if invert then ~~~w else w) →
       ((∃ j, j < o.k ∧ c.getLsbD (63 - j) = true) ∧
           (∀ j, o.k ≤ j → j < 64 →
             c.getLsbD (63 - j) = (c.getLsbD (63 - (j - o.k)) ^^ c.getLsbD (63 - (j - o.a)))) →
         Handles s n w
           (.next (s.modLane n fun l =>
             { l with checker := { l.checker with
               state := .verify, progress := 0,
               pos := { seg := (checkerPlan s n).first, r := 0, i := 0, p := 1, pause := 0 },
               prbs := c.setWidth 32 &&& BitVec.ofNat 32 (2 ^ o.k - 1) } }))) ∧
       (¬ ((∃ j, j < o.k ∧ c.getLsbD (63 - j) = true) ∧
           (∀ j, o.k ≤ j → j < 64 →
             c.getLsbD (63 - j) = (c.getLsbD (63 - (j - o.k)) ^^ c.getLsbD (63 - (j - o.a))))) →
         Handles s n w (.next s))) ∧
  (∀ (n : Lane) (w : Word) (s : State), (s.lane n).checker.state = .off → Handles s n w (.next s)) ∧
  (∀ (src : Source) (w : Word) (s : State), arrives src w s = heardInTurn src w (List.finRange 4) s) ∧
  (∀ (src : Source) (w : Word) (s t : State), arrives src w s = .next t →
    (∀ n : Lane, (s.lane n).route.source = src → ∃ u, heard n w s = .next u ∧
      LaneStandsAs n (fun m => (s.lane m).route.source = src) u t) ∧
    (∀ n : Lane, (s.lane n).route.source ≠ src → LaneStandsAs n (fun m => (s.lane m).route.source = src) s t) ∧
    (∀ p : Port, ∃ pending results,
      t.port p = { s.port p with results := results, view := { (s.port p).view with pending := pending } } ∧
        ∀ k, 24 ≤ k → pending.getLsbD k = (s.port p).view.pending.getLsbD k) ∧
    t.segs = s.segs ∧ t.store = s.store ∧ t.holders = s.holders ∧ t.resetPhase = s.resetPhase ∧
    t.freeCount = s.freeCount ∧ t.pending = s.pending) ∧
  (∀ (src : Source) (w : Word) (s : State),
    (∀ m : Lane, (s.lane m).route.source = src → (s.lane m).checker.state = .off) → arrives src w s = .next s) ∧
  ∀ (b : Lane) (w : Word) (s : State), exec (.receiveWord b w) s = arrives (.external b) w s ∧
    ((∀ m : Lane, (s.lane m).route.source = .external b → (s.lane m).checker.state = .off) →
      exec (.receiveWord b w) s = .next s)

/-- R86, R87, R94, R98, R111: a word handled in VERIFY, under either plan mode, from a receive bus or a loop, whatever
other checkers take the word too (R76, R115). A clean counted word counts toward V, and the V-th gives lock with its
gain counted and LOCK_GAINED raised; an errored one returns the checker to SEARCH; an uncounted word or a pause
position moves the reference alone. None is accumulated. -/
def Obligations.VerifyCountsCleanWords : Prop :=
  ∀ (n : Lane) (w : Word) (s : State), (s.lane n).checker.state = .verify →
    (∀ next : Checker, UncountedReference s n next →
      Handles s n w (.next (s.modLane n fun l => { l with checker := next }))) ∧
    ∀ (ref mask : Word) (next : Checker), CountedReference s n ref mask next →
      (ones ((w ^^^ ref) &&& mask) ≠ 0 →
        Handles s n w (.next (s.modLane n fun l => { l with checker := searching l.checker }))) ∧
      (ones ((w ^^^ ref) &&& mask) = 0 →
        (s.lane n).checker.progress.toNat + 1 < (s.lane n).checker.config.verify.toNat →
        Handles s n w
          (.next (s.modLane n fun l => { l with checker := { next with progress := l.checker.progress + 1 } }))) ∧
      (ones ((w ^^^ ref) &&& mask) = 0 →
        (s.lane n).checker.config.verify.toNat ≤ (s.lane n).checker.progress.toNat + 1 →
        Handles s n w (.next (lockGained n next s)))

/-- R86, R87, R96, R101, R102, R103, R105, R106, R111, R128, R130, R131: a word in LOCKED that keeps the lock, under
either plan mode, from a receive bus or a loop. A counted word's bits go to the run totals, and to the interval and
slice when the interval counts, with ACCUM_LIMIT for a count that passes its maximum under a clear latch; a WORDS-unit
timer counts it as one unit, which may fill the slice or bring the interval to its length; then the slip score moves.
An uncounted word or a pause position moves the reference alone. What leaves the first-error offset open is read from
the counts (log 22). -/
def Obligations.LockedWordIsAccumulated : Prop :=
  ∀ (n : Lane) (w : Word) (s : State), (s.lane n).checker.state = .locked →
    (∀ next : Checker, UncountedReference s n next →
      Handles s n w (.next (s.modLane n fun l => { l with checker := next }))) ∧
    ∀ (ref mask : Word) (next : Checker) (e : Nat) (slip : BitVec 6), CountedReference s n ref mask next →
      e = ones ((w ^^^ ref) &&& mask) →
      (0 < e → (s.lane n).checker.slip.toNat + 1 ≤ (s.lane n).checker.config.threshold.toNat) →
      slip.toNat = (if 0 < e then (s.lane n).checker.slip.toNat + 1 else (s.lane n).checker.slip.toNat - 1) →
      Handles s n w
        (.next ((wordUnit n (accumulated n (ones mask) e s)).modLane n fun l =>
          { l with checker := { next with slip := slip } }))

/-- R108, R109: an addition that passes a count's maximum stops there and sets the flag in SATURATE mode, and goes on
from the remainder with the tally up (to 255) in WRAP mode; one that only reaches it does neither. R111: new run or
interval counts of a lane, of which one has passed its maximum, raise ACCUM_LIMIT in both views and set their latch
when it was clear, and raise nothing when it was set; nothing else changes. -/
def Obligations.CountsOverflowByMode : Prop :=
  (∀ (w k : Nat) (c : Counter w), 7 ≤ w → k ≤ 64 →
    (c.value.toNat + k ≤ 2 ^ w - 1 → ∀ mode : OverflowMode, ∃ v : BitVec w, v.toNat = c.value.toNat + k ∧
      Counter.add mode c k = ({ c with value := v }, false)) ∧
    (2 ^ w - 1 < c.value.toNat + k →
      (∃ v : BitVec w, v.toNat = 2 ^ w - 1 ∧
        Counter.add .saturate c k = ({ c with value := v, saturated := true }, true)) ∧
      ∃ (v : BitVec w) (t : BitVec 8), v.toNat = c.value.toNat + k - 2 ^ w ∧ t.toNat = min (c.tally.toNat + 1) 255 ∧
        Counter.add .wrap c k = ({ c with value := v, tally := t }, true))) ∧
  (∀ (s : State) (n : Lane) (run : RunTotals) (passed : Bool),
    setRun s n (run, passed) =
      (if passed = true ∧ (s.lane n).acc.runLatch = false then withEvent (.accumLimit n) else id)
        (s.setLane n { s.lane n with acc := { (s.lane n).acc with
          run := run, runLatch := (s.lane n).acc.runLatch || passed } })) ∧
  (∀ (s : State) (n : Lane) (ivl : IntervalAcc) (passed : Bool),
    setInterval s n (ivl, passed) =
      (if passed = true ∧ (s.lane n).acc.intervalLatch = false then withEvent (.accumLimit n) else id)
        (s.setLane n { s.lane n with acc := { (s.lane n).acc with
          interval := ivl, intervalLatch := (s.lane n).acc.intervalLatch || passed } })) ∧
  ∀ (s : State) (n : Lane) (c e : Nat) (p : Port), c ≤ 64 → e ≤ c →
    ((s.lane n).acc.runLatch = false →
      2 ^ 56 ≤ (s.lane n).acc.run.compared.value.toNat + c ∨ 2 ^ 48 ≤ (s.lane n).acc.run.errored.value.toNat + e ∨
        (0 < e ∧ (s.lane n).acc.run.words.value = BitVec.allOnes 40) →
      ((accumulated n c e s).port p).view.pending.getLsbD (6 * n.val + 5) = true ∧
        ((accumulated n c e s).lane n).acc.runLatch = true) ∧
    (counting (s.lane n) = true → (s.lane n).acc.intervalLatch = false →
      2 ^ 48 ≤ (s.lane n).acc.interval.compared.value.toNat + c ∨
        2 ^ 40 ≤ (s.lane n).acc.interval.errored.value.toNat + e ∨
        (0 < e ∧ (s.lane n).acc.interval.words.value = BitVec.allOnes 32) →
      ((accumulated n c e s).port p).view.pending.getLsbD (6 * n.val + 5) = true ∧
        ((accumulated n c e s).lane n).acc.intervalLatch = true) ∧
    ((s.lane n).acc.runLatch = true → (s.lane n).acc.intervalLatch = true ∨ counting (s.lane n) = false →
      (accumulated n c e s).port p = s.port p)

/-- R86, R87, R96, R97, R98, R102, R105, R106, R111, R128, R130, R131, R132: the errored word that would bring the
slip score past T loses lock, under either plan mode and either timer unit, from a receive bus or a loop. The word is
counted in full first: in the run totals, in the interval and its slice, and as a unit of a WORDS-unit interval, whose
slice or interval it may close; then the score, progress and position are discarded, the loss is counted, the open
slice marked when the interval counts, and LOCK_LOST raised. What leaves the first-error offset open is read from the
counts (log 22). -/
def Obligations.LossOfLockReturnsToSearch : Prop :=
  ∀ (n : Lane) (w ref mask : Word) (s t : State) (next : Checker) (e : Nat),
    (s.lane n).checker.state = .locked → CountedReference s n ref mask next → e = ones ((w ^^^ ref) &&& mask) → 0 < e →
    (s.lane n).checker.config.threshold.toNat < (s.lane n).checker.slip.toNat + 1 →
    t = lockLost n (wordUnit n (accumulated n (ones mask) e s)) →
    Handles s n w (.next t) ∧
      (t.lane n).checker = searching (s.lane n).checker ∧
      (∀ p : Port, (t.port p).view.pending.getLsbD (6 * n.val + 1) = true) ∧
      (t.lane n).acc.run.compared = ((s.lane n).acc.run.compared.add (s.lane n).checker.config.overflow (ones mask)).1 ∧
      (t.lane n).acc.run.errored = ((s.lane n).acc.run.errored.add (s.lane n).checker.config.overflow e).1 ∧
      (t.lane n).acc.run.words = ((s.lane n).acc.run.words.add (s.lane n).checker.config.overflow 1).1 ∧
      (t.lane n).acc.run.losses = ((s.lane n).acc.run.losses.add (s.lane n).checker.config.overflow 1).1 ∧
      (t.lane n).acc.run.gains = (s.lane n).acc.run.gains

/-! ### Measurement intervals (chapter 7) -/

/-- R119 to R124: what starts an interval: GATE_ARM under a LEVEL trigger, GATE_TRIGGER and a matching edge in WAIT,
and an offered close at a waiting CHAIN follower (the offer and its step are the model's reading of R124, log 7).
GATE_ARM otherwise waits; GATE_TRIGGER's reply names no lane (log 13); an edge that starts nothing moves the line, and
marks the open slice when it ends a level pause with the checker outside LOCKED (R132). -/
def Obligations.WhatStartsAnInterval : Prop :=
  (∀ (p : Port) (n : Lane) (s : State), LaneOpen s p n →
    ((s.lane n).timer.state = .stop →
      (s.lane n).timer.config.trigger = .levelHigh ∨ (s.lane n).timer.config.trigger = .levelLow →
      exec (.gateArm p.frame [laneCode n]) s =
        .next ((replied p 2 { status := .ok, code := 0x49, fields := [laneCode n, 2] } s).modLane n freshInterval)) ∧
    ((s.lane n).timer.state = .stop →
      (s.lane n).timer.config.trigger ≠ .levelHigh → (s.lane n).timer.config.trigger ≠ .levelLow →
      exec (.gateArm p.frame [laneCode n]) s =
        .next ((replied p 2 { status := .ok, code := 0x49, fields := [laneCode n, 1] } s).modLane n fun l =>
          { l with timer := { l.timer with state := .wait, chainOffer := .none } })) ∧
    ((s.lane n).timer.state = .wait →
      exec (.gateTrigger p.frame [laneCode n]) s =
        .next ((replied p 2 { status := .ok, code := 0x4A, fields := [0, 0] } s).modLane n freshInterval))) ∧
  (∀ (n : Lane) (level : Level) (s : State),
    ((s.lane n).gateLine = level → exec (.gateEdge n level) s = .next s) ∧
    ((s.lane n).gateLine ≠ level →
      ((s.lane n).timer.state = .wait ∧ (s.lane n).timer.config.trigger.matchesEdge level = true →
        exec (.gateEdge n level) s = .next (s.modLane n fun l => freshInterval { l with gateLine := level })) ∧
      ((s.lane n).timer.state ≠ .wait ∨ (s.lane n).timer.config.trigger.matchesEdge level = false →
        exec (.gateEdge n level) s =
          .next (s.modLane n fun l =>
            { l with
              gateLine := level
              timer := { l.timer with progress := { l.timer.progress with
                sliceMark := l.timer.progress.sliceMark || unavailableNow { l with gateLine := level } } } })))) ∧
  (∀ (t : GateTrigger) (level : Level), t.matchesEdge level = true ↔
    (t = .gateRise ∧ level = .high) ∨ (t = .gateFall ∧ level = .low) ∨ t = .gateBoth) ∧
  ∀ (n : Lane) (s : State),
    ((s.lane n).timer.state = .wait ∧ (s.lane n).timer.chainOffer.standing = true →
      exec (.chainStart n) s = .next (s.modLane n freshInterval)) ∧
    ((s.lane n).timer.state ≠ .wait ∨ (s.lane n).timer.chainOffer.standing = false → exec (.chainStart n) s = .next s)

/-- R122, R125, R130: what closes an interval, and what follows it: STOP after GATE_STOP and after an expiry under
ONCE, a fresh interval after a RETRIGGER and after an expiry under REPEAT. GATE_STOP outside RUN closes nothing. That
INTERVAL_EXPIRY is a command of its own, with nothing to do unless an expiry stands, is the model's (log 6); so is
that GATE_TRIGGER's reply names no lane (log 13), and the chain offer, which a timer that stops or starts drops and
which a RETRIGGER's followers owe to its port (log 7). -/
def Obligations.WhatClosesAnInterval : Prop :=
  (∀ (p : Port) (n : Lane) (s : State), LaneOpen s p n →
    ((s.lane n).timer.state = .stop →
      exec (.gateStop p.frame [laneCode n]) s =
        .next (replied p 2 { status := .ok, code := 0x4B, fields := [laneCode n, 0, 0] } s)) ∧
    ((s.lane n).timer.state = .wait →
      exec (.gateStop p.frame [laneCode n]) s =
        .next ((replied p 2 { status := .ok, code := 0x4B, fields := [laneCode n, 1, 0] } s).modLane n fun l =>
          { l with timer := { l.timer with state := .stop, chainOffer := .none } })) ∧
    ((s.lane n).timer.state = .run → ∀ made : Bool, made = ((s.lane n).timer.progress.elapsed != 0) →
      exec (.gateStop p.frame [laneCode n]) s =
          .next ((closeInterval (replied p 2
            { status := .ok, code := 0x4B, fields := [laneCode n, 2, yesNo made] } s) n .gateStop none).modLane n stopped) ∧
        exec (.gateTrigger p.frame [laneCode n]) s =
          .next ((closeInterval (replied p 2
            { status := .ok, code := 0x4A, fields := [1, yesNo made] } s) n .retrigger (some p)).modLane n freshInterval))) ∧
  ∀ (n : Lane) (s : State),
    ((s.lane n).timer.state = .run ∧ (s.lane n).timer.progress.elapsed = (s.lane n).timer.config.length →
      ((s.lane n).timer.config.mode = .once →
        exec (.intervalExpiry n) s =
          .next ((closeInterval s n .expiry none).modLane n stopped)) ∧
      ((s.lane n).timer.config.mode = .repeating →
        exec (.intervalExpiry n) s = .next ((closeInterval s n .expiry none).modLane n freshInterval))) ∧
    (¬ ((s.lane n).timer.state = .run ∧ (s.lane n).timer.progress.elapsed = (s.lane n).timer.config.length) →
      exec (.intervalExpiry n) s = .next s)

/-- R133 to R137, R150, R152, R153, R154: a close with at least one unit classifies its open slice when that has
units, makes a record of the counts and slices as they stand, pushes it as the newest of its ring under the next
sequence number, drops the oldest of a full ring, raises INTERVAL_CLOSED, and THRESHOLD with the alarm, and clears the
interval; a close without units does the last alone. A close is offered to the timers that wait on it (R124; the offer
is the model's, log 7). Nothing else of its lane, and nothing of another, changes. -/
def Obligations.CloseMakesItsRecord : Prop :=
  ∀ (s t : State) (n : Lane) (cause : CloseCause) (sender : Option Port), t = closeInterval s n cause sender →
    ((s.lane n).timer.progress.elapsed = 0 →
      (t.lane n).ring = (s.lane n).ring ∧ (t.lane n).timer.lastRecorded = false ∧ ∀ p, t.port p = s.port p) ∧
    ((s.lane n).timer.progress.elapsed ≠ 0 → (s.lane n).ring.records.length ≤ 16 →
      ∃ r : IntervalRecord,
        (t.lane n).ring =
          { records :=
              (if (s.lane n).ring.records.length = 16 then (s.lane n).ring.records.tail
                else (s.lane n).ring.records) ++ [r]
            nextSeq := (s.lane n).ring.nextSeq + 1 } ∧
        r.sequence = (s.lane n).ring.nextSeq ∧ r.lane = n ∧ r.cause = cause ∧
        r.unit = (s.lane n).timer.config.unit ∧ r.elapsed = (s.lane n).timer.progress.elapsed ∧
        r.compared = (s.lane n).acc.interval.compared.value ∧ r.errored = (s.lane n).acc.interval.errored.value ∧
        r.words = (s.lane n).acc.interval.words.value ∧
        r.figure = rateFigure (s.lane n).acc.interval.errored.value.toNat
          (s.lane n).acc.interval.compared.value.toNat ∧
        r.alarm = exceeds (s.lane n).timer.config.alarm (s.lane n).acc.interval.errored.value.toNat
          (s.lane n).acc.interval.compared.value.toNat ∧
        r.comparedSaturated = (s.lane n).acc.interval.compared.saturated ∧
        r.erroredSaturated = (s.lane n).acc.interval.errored.saturated ∧
        r.wordsSaturated = (s.lane n).acc.interval.words.saturated ∧
        (∀ q : IntervalProgress,
          q = (if (s.lane n).timer.progress.sliceUnits = 0 then (s.lane n).timer.progress else classed (s.lane n)) →
          r.slicesClosed = q.slicesClosed ∧ r.clean = q.clean ∧ r.erroredSlices = q.errored ∧ r.severe = q.severe ∧
            r.unavailable = q.unavailable ∧ r.worst = q.worst) ∧
        r.gains = (s.lane n).acc.interval.gains ∧ r.losses = (s.lane n).acc.interval.losses ∧
        r.tallies = (match (s.lane n).checker.config.overflow with
          | .saturate => none
          | .wrap => some
            { compared := (s.lane n).acc.interval.compared.tally, errored := (s.lane n).acc.interval.errored.tally,
              words := (s.lane n).acc.interval.words.tally }) ∧
        r.firstError = (s.lane n).acc.interval.firstError ∧
        r.injected = (s.lane n).route.associate.map (fun _ => (s.lane n).acc.interval.injected) ∧
        (t.lane n).timer.lastRecorded = true ∧
        (∀ p : Port, (t.port p).view.pending =
          (s.port p).view.pending ||| BitVec.ofNat 26 (2 ^ (6 * n.val + 3)) |||
            (if r.alarm then BitVec.ofNat 26 (2 ^ (6 * n.val + 4)) else 0)) ∧
        ∀ (p : Port) (m : Lane), (t.port p).results[m] =
          (match (s.lane n).ring.records.head? with
          | some old =>
            if m = n ∧ (s.lane n).ring.records.length = 16 ∧ (s.port p).results[n].next = old.sequence then
              { next := (s.port p).results[n].next + 1
                skipped := BitVec.ofNat 16 (min ((s.port p).results[n].skipped.toNat + 1) (2 ^ 16 - 1)) }
            else (s.port p).results[m]
          | none => (s.port p).results[m])) ∧
    (∀ m : Lane, t.lane m =
      { s.lane m with
        acc := if m = n then { (s.lane n).acc with interval := Reset.intervalAcc, intervalLatch := false }
          else (s.lane m).acc
        ring := if m = n then (t.lane n).ring else (s.lane m).ring
        timer := { (s.lane m).timer with
          progress := if m = n then Reset.progress else (s.lane m).timer.progress
          lastCause := if m = n then some cause else (s.lane m).timer.lastCause
          lastRecorded := if m = n then (t.lane n).timer.lastRecorded else (s.lane m).timer.lastRecorded
          chainOffer :=
            if (cause = .expiry ∨ cause = .retrigger) ∧ (s.lane m).timer.state = .wait ∧
                (s.lane m).timer.config.trigger = .chain n then
              { standing := true
                owedA := (s.lane m).timer.chainOffer.owedA || sender == some .a
                owedB := (s.lane m).timer.chainOffer.owedB || sender == some .b }
            else (s.lane m).timer.chainOffer } }) ∧
    t.segs = s.segs ∧ t.store = s.store ∧ t.holders = s.holders ∧ t.resetPhase = s.resetPhase ∧
    t.freeCount = s.freeCount ∧ t.pending = s.pending

/-- R127, R129, R130, R131, R173: a tick adds one unit to every TIME-unit timer that counts, on every lane alike. The
unit may fill the lane's slice and open the next; where it brings the interval to its length, the interval closes with
cause EXPIRY and a record, into STOP under ONCE and into a fresh interval under REPEAT, whatever the other lanes do at
the same tick. Any other lane is left alone, but that a timer that waits on the close of such a lane is offered it
(R124, log 7). Each running hold-off timer loses one tick and stops at 0. The order of the lanes within a tick is the
model's (log 26). -/
def Obligations.TicksCountAndExpire : Prop :=
  ∀ s u : State, u = (List.finRange 4).foldl (fun v n => tickUnit n v) s →
    ∃ t, exec .tick s = .next t ∧
      (∀ n : Lane, t.lane n = u.lane n) ∧
      (∀ p : Port, ∃ h : Holdoff, t.port p = { u.port p with view := { (u.port p).view with holdoff := h } } ∧
        ((s.port p).view.holdoff.running = false → h = (s.port p).view.holdoff) ∧
        ((s.port p).view.holdoff.running = true →
          h.remaining.toNat = (s.port p).view.holdoff.remaining.toNat - 1 ∧
          (h.running = true ↔ h.remaining ≠ 0))) ∧
      t.segs = s.segs ∧ t.store = s.store ∧ t.holders = s.holders ∧ t.resetPhase = s.resetPhase ∧
      t.freeCount = s.freeCount ∧ t.pending = s.pending ∧
      (∀ n : Lane, (s.lane n).timer.config.unit = .time → counting (s.lane n) = true →
        (dueAtTick (s.lane n) = false → t.lane n = unitTaken (s.lane n)) ∧
        (dueAtTick (s.lane n) = true →
          t.lane n = (expired n (s.modLane n unitTaken)).lane n ∧ (t.lane n).timer.lastCause = some .expiry ∧
          (t.lane n).timer.progress.elapsed = 0 ∧
          (t.lane n).timer.state = (match (s.lane n).timer.config.mode with | .once => .stop | .repeating => .run) ∧
          (1 ≤ (s.lane n).timer.config.length.toNat →
            (t.lane n).timer.lastRecorded = true ∧ (t.lane n).ring.nextSeq = (s.lane n).ring.nextSeq + 1 ∧
            ∀ p : Port, (t.port p).view.pending.getLsbD (6 * n.val + 3) = true))) ∧
      (∀ n : Lane, (s.lane n).timer.config.unit = .words ∨ counting (s.lane n) = false →
        t.lane n = { s.lane n with timer := { (s.lane n).timer with chainOffer :=
          if (s.lane n).timer.state = .wait ∧
              (∃ m : Lane, (s.lane n).timer.config.trigger = .chain m ∧ dueAtTick (s.lane m) = true) then
            { (s.lane n).timer.chainOffer with standing := true }
          else (s.lane n).timer.chainOffer } }) ∧
      ∀ (n : Lane) (p : Port), dueAtTick (s.lane n) = false → (t.port p).results[n] = (s.port p).results[n] ∧
        ∀ k, k < 6 → (t.port p).view.pending.getLsbD (6 * n.val + k) = (s.port p).view.pending.getLsbD (6 * n.val + k)

/-- R131 to R134: a slice whose units are used up is put in the first class whose test holds, offered to the
worst-slice list when ERRORED or SEVERE, and followed at once by the next; a slice short of its units stays. That
SLICE_CLOSE is a command of its own is the model's (log 6). R131: the tick, and the compared word under unit WORDS,
whose unit fills the slice of an interval short of its length closes that slice and opens the next, with the
interval's elapsed one unit on and nothing of its record made. -/
def Obligations.SliceClosesInItsClass : Prop :=
  (∀ (n : Lane) (s : State),
    (¬ ((s.lane n).timer.state = .run ∧ (s.lane n).timer.progress.sliceUnits = (s.lane n).timer.config.slice) →
      exec (.sliceClose n) s = .next s) ∧
    ((s.lane n).timer.state = .run → (s.lane n).timer.progress.sliceUnits = (s.lane n).timer.config.slice →
      exec (.sliceClose n) s = .next (s.modLane n nextSlice))) ∧
  ∀ (n : Lane) (s : State), counting (s.lane n) = true →
    (s.lane n).timer.progress.elapsed.toNat + 1 < (s.lane n).timer.config.length.toNat →
    (s.lane n).timer.progress.sliceUnits.toNat + 1 = (s.lane n).timer.config.slice.toNat →
    (∀ u : LaneState, u = unitTaken (s.lane n) →
      u.timer.progress.elapsed.toNat = (s.lane n).timer.progress.elapsed.toNat + 1 ∧
      u.timer.progress.sliceIndex = (s.lane n).timer.progress.sliceIndex + 1 ∧ u.timer.progress.sliceUnits = 0 ∧
      u.timer.progress.sliceMark = unavailableNow (s.lane n) ∧
      u.timer.progress.slicesClosed = (s.lane n).timer.progress.slicesClosed + 1 ∧
      u.timer.progress.worst = (classed (s.lane n)).worst ∧
      u.acc.interval.sliceCompared = 0 ∧ u.acc.interval.sliceErrored = 0 ∧ u.ring = (s.lane n).ring ∧
      u.timer.state = .run) ∧
    ((s.lane n).timer.config.unit = .time →
      ∃ t, exec .tick s = .next t ∧ t.lane n = unitTaken (s.lane n) ∧
        ((∀ m : Lane, m ≠ n → (s.lane m).timer.config.unit = .words ∨ counting (s.lane m) = false) →
          ∀ m : Lane, m ≠ n → t.lane m = s.lane m)) ∧
    ((s.lane n).timer.config.unit = .words →
      ∀ (w ref mask : Word) (next : Checker),
        (s.lane n).checker.state = .locked → CountedReference s n ref mask next → (w ^^^ ref) &&& mask = 0 →
        Handles s n w
          (.next (((accumulated n (ones mask) 0 s).modLane n unitTaken).modLane n fun l =>
            { l with checker := { next with slip := if next.slip = 0 then 0 else next.slip - 1 } })))

/-- R134: what an offer does to a worst-slice list in descending order: it stays in order and of at most 4 entries,
and holds the offered slice after its equals, dropping the last when full, unless it is full of entries as large. -/
def Obligations.WorstListKeepsItsOrder : Prop :=
  ∀ (e : WorstEntry) (ws : List WorstEntry), ws.length ≤ 4 →
    ws.Pairwise (fun x y => y.bits.toNat ≤ x.bits.toNat) →
    (offerWorst e ws).length ≤ 4 ∧ (offerWorst e ws).Pairwise (fun x y => y.bits.toNat ≤ x.bits.toNat) ∧
    ∃ kept : List WorstEntry,
      (ws.length < 4 → kept = ws) ∧ (ws.length = 4 → kept = ws.take 3) ∧
      (ws.length < 4 ∨ (∃ x ∈ ws, x.bits.toNat < e.bits.toNat) →
        offerWorst e ws = kept.filter (fun x => decide (e.bits.toNat ≤ x.bits.toNat)) ++ e ::
          kept.filter fun x => decide (x.bits.toNat < e.bits.toNat)) ∧
      (ws.length = 4 → (∀ x ∈ ws, e.bits.toNat ≤ x.bits.toNat) → offerWorst e ws = ws)

/-- R48, R51, R173: the events that a slot or a tick takes by itself act, sent as steps of their own, exactly when
their condition stands (log 6). -/
def Obligations.DueEventsActWhenDue : Prop :=
  (∀ (n : Lane) (s : State),
    ((s.lane n).gen.state = .pausing ∧ (s.lane n).gen.pos.pause = 0 →
      exec (.pauseEnd n) s = .next (s.modLane n fun l => { l with gen := { l.gen with state := .running } })) ∧
    ((s.lane n).gen.state ≠ .pausing ∨ (s.lane n).gen.pos.pause ≠ 0 → exec (.pauseEnd n) s = .next s)) ∧
  (∀ (n : Lane) (s : State),
    ((s.lane n).gen.state = .running ∨ (s.lane n).gen.state = .pausing → (s.lane n).plan.wordLimit ≠ 0 →
      (s.lane n).gen.wordsEmitted.toNat = (s.lane n).plan.wordLimit.toNat →
      exec (.wordLimitReached n) s =
        .next (withEvent (.runDone n) (s.modLane n fun l =>
          { l with gen := { l.gen with
            state := .armed
            pendingTrigger := false
            pos := { seg := l.plan.first, r := 0, i := 0, p := 0, pause := 0 }
            runsCompleted := l.gen.runsCompleted + 1 } }))) ∧
    ((s.lane n).gen.state = .stopped ∨ (s.lane n).gen.state = .armed ∨ (s.lane n).plan.wordLimit = 0 ∨
        (s.lane n).gen.wordsEmitted.toNat ≠ (s.lane n).plan.wordLimit.toNat →
      exec (.wordLimitReached n) s = .next s)) ∧
  ∀ (p : Port) (s : State),
    ((s.port p).view.holdoff.running = true ∧ (s.port p).view.holdoff.remaining = 0 →
      exec (.holdoffExpiry p) s =
        .next (s.modPort p fun v =>
          { v with view := { v.view with holdoff := { running := false, remaining := 0 } } })) ∧
    ((s.port p).view.holdoff.running = false ∨ (s.port p).view.holdoff.remaining ≠ 0 →
      exec (.holdoffExpiry p) s = .next s)

/-! ### Rates (chapter 8) -/

/-- R140 to R143: the class, mantissa and exponent of a rate figure of any counts the part can hold. R146, R147: the
exact test of a threshold, and its agreement with the figure of the same counts. -/
def Obligations.RateFiguresAgreeWithThresholds : Prop :=
  (∀ (e n : Nat) (f : RateFigure), n < 2 ^ 56 → f = rateFigure e n →
     (n = 0 → f = { m := 0, x := 63, clamped := false }) ∧
     (n ≠ 0 → e = 0 → f = { m := 0, x := 0, clamped := false }) ∧
     (n ≠ 0 → n ≤ e → f = { m := 65535, x := 0, clamped := true }) ∧
     (0 < e → e < n →
       f.clamped = false ∧ 32768 ≤ f.m.toNat ∧ f.x.toNat ≤ 55 ∧ n ≤ e * 2 ^ (f.x.toNat + 1) ∧
       (∀ y, y < f.x.toNat → e * 2 ^ (y + 1) < n) ∧ f.m.toNat = e * 2 ^ (16 + f.x.toNat) / n)) ∧
  ∀ (e n : Nat) (th : Threshold) (f : RateFigure), n < 2 ^ 56 → f = rateFigure e n →
    (th.tm ≠ 0 → n ≠ 0 → (exceeds th e n = true ↔ th.tm.toNat * n < e * 2 ^ (16 + th.tx.toNat))) ∧
    (th.tm = 0 ∨ n = 0 ∨ e = 0 → exceeds th e n = false) ∧
    (32768 ≤ th.tm.toNat → 0 < n → n ≤ e → exceeds th e n = true) ∧
    (32768 ≤ th.tm.toNat → 0 < e → e < n →
      (exceeds th e n = true ↔
        f.x.toNat < th.tx.toNat ∨
          (f.x.toNat = th.tx.toNat ∧
            (th.tm.toNat < f.m.toNat ∨ (f.m.toNat = th.tm.toNat ∧ e * 2 ^ (16 + f.x.toNat) % n ≠ 0)))))

/-! ### Result rings (chapter 9) -/

/-- R155: RESULT_READ answers EMPTY at next_seq with the skipped count kept, and otherwise the record at the sender's
cursor with the losses before it, and moves that cursor alone. R157: RESULT_CLEAR empties the ring, charges each port
with its unread records and puts both cursors at next_seq, which stays. R181, Table 11-5: what stands at each byte of
the record that RESULT_READ and RESULT_PEEK answer with, the optional parts and the list moved up over the parts that
are absent. -/
def Obligations.ResultCursorsFollowTheRing : Prop :=
  (∀ (r : IntervalRecord) (bs : List Byte) (o1 o2 o3 : Nat), bs = recordBytes r →
     o1 = 49 + (if r.tallies.isSome then 3 else 0) → o2 = o1 + (if r.firstError.isSome then 6 else 0) →
     o3 = o2 + (if r.injected.isSome then 4 else 0) →
     bs.length = o3 + 7 * r.worst.length ∧
     (r.worst.length ≤ 4 → 49 ≤ bs.length ∧ bs.length ≤ 90 ∧ (byteAt bs 48).toNat = r.worst.length) ∧
     fieldAt bs 0 4 = r.sequence.toNat ∧ (byteAt bs 4).toNat = r.lane.val ∧
     byteAt bs 5 =
       (match r.cause with | .expiry => 1 | .retrigger => 2 | .gateStop => 3 | .checkerStop => 4) ∧
     byteAt bs 6 = (match r.unit with | .time => 0 | .words => 1) ∧
     ((byteAt bs 7).getLsbD 7 = r.alarm ∧ (byteAt bs 7).getLsbD 6 = r.figure.clamped ∧
       (byteAt bs 7).getLsbD 5 = r.comparedSaturated ∧ (byteAt bs 7).getLsbD 4 = r.erroredSaturated ∧
       (byteAt bs 7).getLsbD 3 = r.wordsSaturated ∧ (byteAt bs 7).getLsbD 2 = r.tallies.isSome ∧
       (byteAt bs 7).getLsbD 1 = r.firstError.isSome ∧ (byteAt bs 7).getLsbD 0 = r.injected.isSome) ∧
     fieldAt bs 8 3 = r.elapsed.toNat ∧ fieldAt bs 11 6 = r.compared.toNat ∧ fieldAt bs 17 5 = r.errored.toNat ∧
     fieldAt bs 22 4 = r.words.toNat ∧ fieldAt bs 26 2 = r.figure.m.toNat ∧ byteAt bs 28 = r.figure.x ∧
     fieldAt bs 29 3 = r.slicesClosed.toNat ∧ fieldAt bs 32 3 = r.clean.toNat ∧
     fieldAt bs 35 3 = r.erroredSlices.toNat ∧ fieldAt bs 38 3 = r.severe.toNat ∧
     fieldAt bs 41 3 = r.unavailable.toNat ∧ fieldAt bs 44 2 = r.gains.toNat ∧ fieldAt bs 46 2 = r.losses.toNat ∧
     (∀ x, r.tallies = some x →
       byteAt bs 49 = x.compared ∧ byteAt bs 50 = x.errored ∧ byteAt bs 51 = x.words) ∧
     (∀ v, r.firstError = some v → fieldAt bs o1 6 = v.toNat) ∧
     (∀ v, r.injected = some v → fieldAt bs o2 4 = v.toNat) ∧
     ∀ (k : Nat) (h : k < r.worst.length),
       fieldAt bs (o3 + 7 * k) 3 = r.worst[k].index.toNat ∧ fieldAt bs (o3 + 7 * k + 3) 4 = r.worst[k].bits.toNat) ∧
  (∀ (p : Port) (n : Lane) (s : State) (ring : Ring) (c : ResultCursor), FramesTaken s p → ring = (s.lane n).ring →
     c = (s.port p).results[n] →
     (c.next = ring.nextSeq →
       exec (.resultRead p.frame [laneCode n]) s =
         .next (replied p 2
           { status := .empty, code := 0x50, fields := laneCode n :: be 2 c.skipped.toNat ++ [0] } s)) ∧
     ∀ (k : Nat) (h : k < ring.records.length), RingSound ring →
       c.next = ring.nextSeq - BitVec.ofNat 32 ring.records.length + BitVec.ofNat 32 k →
       exec (.resultRead p.frame [laneCode n]) s =
         .next ((replied p 2
           { status := .ok, code := 0x50,
             fields := laneCode n :: be 2 c.skipped.toNat ++ be 1 (ring.records.length - 1 - k) ++
               recordBytes ring.records[k] } s).modPort p fun v =>
           { v with results := v.results.set n { next := c.next + 1, skipped := 0 } })) ∧
  ∀ (p : Port) (n : Lane) (s : State), LaneOpen s p n →
    exec (.resultClear p.frame [laneCode n]) s =
      .next (((replied p 2
        { status := .ok, code := 0x52, fields := laneCode n :: be 1 (s.lane n).ring.records.length } s).modLane n
        fun l => { l with ring := { l.ring with records := [] } }).modPorts fun v =>
          { v with
            results := v.results.set n
              { next := (s.lane n).ring.nextSeq
                skipped := BitVec.ofNat 16
                  (min (v.results[n].skipped.toNat + ((s.lane n).ring.nextSeq - v.results[n].next).toNat)
                    (2 ^ 16 - 1)) } })

/-! ### Status reads -/

/-- R33, R60, R69, R74, R99, R112, R138, R156: the reads of a lane answer what stands and change nothing but the
response. R161, R179, Tables 11-1 and 11-3: how the fields of a reply are spelled, and the codes of its enumerated
values. The free bytes of INJECT_READ and GATE_STATUS, the order of TOTALS_READ's counts, the form of GATE_STATUS's
list, SIG_READ's reply without a lane and the form of an associate of NONE are the model's (logs 8, 9, 11, 12, 13,
32). -/
def Obligations.StatusReadsChangeNothing : Prop :=
  (∀ (p : Port) (n : Lane) (s : State) (l : LaneState), FramesTaken s p → l = s.lane n →
    exec (.planRead p.frame [laneCode n]) s =
        .next (replied p 2
          { status := .ok, code := 0x22,
            fields := laneCode n ::
              ([planModeCode l.plan.mode, segIndexCode l.plan.first, segIndexCode l.plan.anchor,
                planTriggerCode l.plan.trigger] ++ be 2 l.plan.passCount.toNat ++ be 2 l.plan.pause.toNat ++
                be 2 l.plan.passStep.toNat ++ be 4 l.plan.wordLimit.toNat ++ be 8 l.plan.idleWord.toNat ++
                [yesNo l.plan.valid, verdictCode l.plan.verdict, segIndexCode l.plan.verdictSeg] ++
                be 8 l.plan.reach.toNat) } s) ∧
      exec (.laneStatus p.frame [laneCode n]) s =
        .next (replied p 2
          { status := .ok, code := 0x2B,
            fields := [laneCode n, genStateCode l.gen.state, yesNo l.gen.pendingTrigger, segIndexCode l.gen.pos.seg,
                l.gen.pos.r] ++ be 2 l.gen.pos.i.toNat ++ be 4 l.gen.pos.p.toNat ++ be 2 l.gen.pos.pause.toNat ++
              be 6 l.gen.wordsEmitted.toNat ++ be 4 l.gen.passesDone.toNat ++ be 4 l.gen.runsCompleted.toNat ++
              be 6 l.inject.bits.toNat ++ be 5 l.inject.words.toNat } s) ∧
      exec (.injectRead p.frame [laneCode n]) s =
        .next ((replied p 2
          { status := .ok, code := 0x31,
            fields := laneCode n :: (injectionBytes l.inject.setting (freeBytes s 5) ++
              be 3 l.inject.periodCount.toNat ++ be 6 l.inject.bits.toNat ++ be 5 l.inject.words.toNat) } s).useFree
          5) ∧
      exec (.sigRead p.frame [laneCode n]) s =
        .next (replied p 2
          { status := .ok, code := 0x34,
            fields := be 4 l.sig.reg.toNat ++
              (match l.sig.pass with
              | some q => 1 :: (be 4 q.value.toNat ++ be 4 q.pass.toNat ++ be 4 q.run.toNat)
              | none => List.replicate 13 0) } s) ∧
      exec (.checkStatus p.frame [laneCode n]) s =
        .next (replied p 2
          { status := .ok, code := 0x3C,
            fields := [laneCode n, checkStateCode l.checker.state, laneCode l.checker.config.planLane,
                BitVec.ofNat 8 l.checker.config.verify.toNat, BitVec.ofNat 8 l.checker.config.threshold.toNat,
                overflowCode l.checker.config.overflow,
                planModeCode (if l.checker.state = .off then (checkerPlan s n).mode else l.checker.mode)] ++
              routeBytes l.route ++
              [BitVec.ofNat 8 l.checker.progress.toNat, BitVec.ofNat 8 l.checker.slip.toNat,
                segIndexCode l.checker.pos.seg, l.checker.pos.r] ++ be 2 l.checker.pos.i.toNat ++
              be 4 l.checker.pos.p.toNat ++ be 2 l.checker.pos.pause.toNat } s) ∧
      exec (.totalsRead p.frame [laneCode n]) s =
        .next (replied p 2
          { status := .ok, code := 0x40,
            fields := [laneCode n, checkStateCode l.checker.state, overflowCode l.checker.config.overflow] ++
              runTotalsBytes l.acc.run ++
              figureBytes (rateFigure l.acc.run.errored.value.toNat l.acc.run.compared.value.toNat) ++
              [yesNo (l.timer.state == .run && gateActive l)] ++ intervalAccBytes l.acc.interval ++
              figureBytes (rateFigure l.acc.interval.errored.value.toNat l.acc.interval.compared.value.toNat) ++
              [yesNo l.acc.runLatch, yesNo l.acc.intervalLatch] } s) ∧
      exec (.gateStatus p.frame [laneCode n]) s =
        .next ((replied p 2
          { status := .ok, code := 0x4C,
            fields := [laneCode n, timerStateCode l.timer.state] ++
              timerConfigBytes l.timer.config (Config.freeByte s.freeCount) ++
              [yesNo (l.gateLine == .high), yesNo (gateActive l)] ++ be 3 l.timer.progress.elapsed.toNat ++
              be 3 l.timer.progress.sliceIndex.toNat ++ be 2 l.timer.progress.sliceUnits.toNat ++
              [yesNo l.timer.progress.sliceMark] ++ be 3 l.timer.progress.slicesClosed.toNat ++
              be 3 l.timer.progress.clean.toNat ++ be 3 l.timer.progress.errored.toNat ++
              be 3 l.timer.progress.severe.toNat ++ be 3 l.timer.progress.unavailable.toNat ++
              [BitVec.ofNat 8 l.timer.progress.worst.length] ++ worstBytes l.timer.progress.worst ++
              [closeCauseCode l.timer.lastCause, yesNo l.timer.lastRecorded] } s).useFree
          (chainFree l.timer.config.trigger)) ∧
      exec (.resultPeek p.frame [laneCode n]) s =
        .next (replied p 2
          { status := if l.ring.records = [] then .empty else .ok
            code := 0x51
            fields := laneCode n :: (be 1 l.ring.records.length ++ be 4 l.ring.nextSeq.toNat ++
              (match l.ring.records.getLast? with
              | some r => recordBytes r
              | none => [])) } s)) ∧
  ((∀ k v : Nat, (be k v).length = k ∧
      ∀ j, j < k → (be k v)[j]? = some (BitVec.ofNat 8 (v / 256 ^ (k - 1 - j)))) ∧
    (∀ (bs : List Byte) (i k : Nat), byteAt bs i = bs.getD i 0 ∧ fieldAt bs i 0 = 0 ∧
      (i + k < bs.length → fieldAt bs i (k + 1) = fieldAt bs i k * 256 + (byteAt bs (i + k)).toNat)) ∧
    (∀ r : Response, responseBytes r = statusCode r.status :: r.code :: r.fields) ∧
    [Status.none, .ok, .empty, .frame, .unknown, .range, .reserved, .busy, .state].map statusCode =
      [0, 1, 2, 3, 4, 5, 6, 7, 8] ∧
    [Verdict.unchecked, .valid, .undefined, .anchorUnreached, .anchorKind, .anchorMask, .notPrbs, .changed].map
      verdictCode = [0, 1, 2, 3, 4, 5, 6, 7] ∧
    [PlanMode.sequence, .freeRun].map planModeCode = [0, 1] ∧
    [PlanTrigger.soft, .trigRise, .trigFall, .trigBoth].map planTriggerCode = [0, 1, 2, 3] ∧
    [GenState.stopped, .armed, .running, .pausing].map genStateCode = [0, 1, 2, 3] ∧
    [CheckState.off, .search, .verify, .locked].map checkStateCode = [0, 1, 2, 3] ∧
    [OverflowMode.saturate, .wrap].map overflowCode = [0, 1] ∧
    [TimerUnit.time, .words].map timerUnitCode = [0, 1] ∧ [TimerMode.once, .repeating].map timerModeCode = [0, 1] ∧
    [TimerState.stop, .wait, .run].map timerStateCode = [0, 1, 2] ∧
    [none, some CloseCause.expiry, some .retrigger, some .gateStop, some .checkerStop].map closeCauseCode =
      [0, 1, 2, 3, 4] ∧
    [false, true].map yesNo = [0, 1] ∧ [none, some Port.a, some .b].map holderCode = [0, 1, 2] ∧
    (∀ n : Lane, (laneCode n).toNat = n.val) ∧ (∀ i : Fin 64, (segIndexCode i).toNat = i.val)) ∧
  (∀ f : RateFigure, figureBytes f = be 2 f.m.toNat ++ [f.x, yesNo f.clamped]) ∧
  (∀ ws : List WorstEntry, worstBytes ws = ws.flatMap fun e => be 3 e.index.toNat ++ be 4 e.bits.toNat) ∧
  (∀ r : RunTotals, runTotalsBytes r =
    be 7 r.compared.value.toNat ++ be 6 r.errored.value.toNat ++ be 5 r.words.value.toNat ++ be 4 r.gains.value.toNat ++
      be 4 r.losses.value.toNat ++
      [yesNo r.compared.saturated, yesNo r.errored.saturated, yesNo r.words.saturated, yesNo r.gains.saturated,
        yesNo r.losses.saturated, r.compared.tally, r.errored.tally, r.words.tally, r.gains.tally, r.losses.tally]) ∧
  (∀ a : IntervalAcc, intervalAccBytes a =
    be 6 a.compared.value.toNat ++ be 5 a.errored.value.toNat ++ be 4 a.words.value.toNat ++
      [yesNo a.compared.saturated, yesNo a.errored.saturated, yesNo a.words.saturated, a.compared.tally,
        a.errored.tally, a.words.tally] ++
      be 2 a.gains.toNat ++ be 2 a.losses.toNat ++ be 4 a.injected.toNat ++
      (match a.firstError with
      | some v => 1 :: be 6 v.toNat
      | none => List.replicate 7 0)) ∧
  (∀ r : Route, routeBytes r =
    (match r.source with
      | .external m => [0, laneCode m]
      | .loop m => [1, laneCode m]) ++ [match r.associate with | some g => laneCode g | none => 255]) ∧
  (∀ c : CheckConfig, checkConfigBytes c =
    [laneCode c.planLane, BitVec.ofNat 8 c.verify.toNat, BitVec.ofNat 8 c.threshold.toNat, overflowCode c.overflow]) ∧
  (∀ (c : TimerConfig) (free : Byte), timerConfigBytes c free =
    [timerUnitCode c.unit] ++ be 3 c.length.toNat ++ be 2 c.slice.toNat ++ [timerModeCode c.mode] ++
      (match c.trigger with
      | .soft => ([0, free] : List Byte)
      | .gateRise => [1, free]
      | .gateFall => [2, free]
      | .gateBoth => [3, free]
      | .levelHigh => [4, free]
      | .levelLow => [5, free]
      | .chain m => [6, laneCode m]) ++
      be 2 c.alarm.tm.toNat ++ [c.alarm.tx] ++ be 2 c.severe.tm.toNat ++ [c.severe.tx]) ∧
  ∀ (x : Injection) (f1 f2 f3 f4 f5 : Byte), injectionBytes x [f1, f2, f3, f4, f5] =
    match x with
    | .off => [0, f1, f2, f3, f4, f5]
    | .single bit => [1, BitVec.ofNat 8 bit.toNat, f2, f3, f4, f5]
    | .burst bit len => [2, BitVec.ofNat 8 bit.toNat, BitVec.ofNat 8 len.toNat, f3, f4, f5]
    | .periodic bit period => [3, BitVec.ofNat 8 bit.toNat, f2] ++ be 3 period.toNat

/-! ### Device reset (chapter 10) -/

/-- R178: RESET_N low, or power-up, puts every block at its reset values; the rise of RESET_N ends the reset, and a
line that is high cannot rise (log 29). The lines, the queue and the count of free bytes are not the part's to reset
(logs 3, 24, 30), and State.reset holds the model's own values where the spec gives none (logs 18, 19, 20, 28, 31),
with RESET_N high (log 1) and no close on its way to a follower (log 7). R1, R11, R12, R23, R38, R61, R72, R75, R79,
R85, R104, R107, R111, R116, R117, R150, R151, R165, R170, R171, R178: what a device reset leaves, where the spec
gives the value. -/
def Obligations.DeviceResetLeavesResetValues : Prop :=
  (∀ s : State,
     exec .deviceReset s =
         .next { State.reset with
           lanes := Vector.ofFn fun n => { State.reset.lane n with
             trigLine := (s.lane n).trigLine, gateLine := (s.lane n).gateLine }
           resetPhase := .held
           freeCount := s.freeCount
           pending := s.pending } ∧
       (s.resetPhase = .held → exec .resetNReturnsHigh s = .next { s with resetPhase := .released }) ∧
       (s.resetPhase ≠ .held → exec .resetNReturnsHigh s = .next s)) ∧
  (∀ i : Fin 64, State.reset.record i = none ∧ (State.reset.seg i).useSet = 0) ∧
  (∀ a : Fin 4096, storeRead State.reset.store a.val = 0) ∧
  (∀ r : Fin 20, State.reset.holder r = none) ∧
  (∀ p : Port, (State.reset.port p).response = { status := .none, code := 0, fields := [] } ∧
    (State.reset.port p).segCursor = 0 ∧ (State.reset.port p).wordCursor = 0 ∧
    (State.reset.port p).view =
      { pending := BitVec.ofNat 26 (2 ^ 25), enable := BitVec.ofNat 26 (2 ^ 25), length := 20,
        holdoff := { running := false, remaining := 0 } } ∧
    State.reset.alertLine p = true ∧
    ∀ n : Lane, (State.reset.port p).results[n] = { next := 0, skipped := 0 }) ∧
  ∀ (n : Lane) (l : LaneState), l = State.reset.lane n →
    l.plan.mode = .sequence ∧ l.plan.first.val = n.val ∧ l.plan.anchor.val = n.val ∧ l.plan.trigger = .soft ∧
    l.plan.passCount = 1 ∧ l.plan.pause = 0 ∧ l.plan.passStep = 0 ∧ l.plan.wordLimit = 0 ∧ l.plan.idleWord = 0 ∧
    l.plan.valid = false ∧ l.plan.reach = 0 ∧ l.plan.verdict = .unchecked ∧ l.plan.verdictSeg = 0 ∧
    l.gen.state = .stopped ∧ l.gen.pendingTrigger = false ∧
    l.gen.pos = { seg := 0, r := 0, i := 0, p := 0, pause := 0 } ∧ l.gen.wordsEmitted = 0 ∧ l.gen.passesDone = 0 ∧
    l.gen.runsCompleted = 0 ∧ l.inject = { setting := .off, periodCount := 0, bits := 0, words := 0 } ∧
    l.sig = { reg := 0, pass := none } ∧ l.route = { source := .external n, associate := some n } ∧
    l.checker.config = { planLane := n, verify := 4, threshold := 31, overflow := .saturate } ∧
    l.checker.state = .off ∧ l.checker.slip = 0 ∧ l.checker.progress = 0 ∧
    l.checker.pos = { seg := 0, r := 0, i := 0, p := 0, pause := 0 } ∧
    l.timer.state = .stop ∧ l.timer.config.length = 1000 ∧ l.timer.config.slice = 1000 ∧
    l.timer.config.unit = .time ∧ l.timer.config.mode = .once ∧ l.timer.config.trigger = .soft ∧
    l.timer.config.alarm.tm = 0 ∧ l.timer.config.severe.tm = 0 ∧
    l.timer.progress =
      { elapsed := 0, sliceIndex := 0, sliceUnits := 0, sliceMark := false, slicesClosed := 0, clean := 0, errored := 0,
        severe := 0, unavailable := 0, worst := [] } ∧
    l.timer.lastCause = none ∧ l.timer.lastRecorded = false ∧ l.ring = { records := [], nextSeq := 0 } ∧
    l.acc.run =
      { compared := { value := 0, saturated := false, tally := 0 }
        errored := { value := 0, saturated := false, tally := 0 }
        words := { value := 0, saturated := false, tally := 0 }
        gains := { value := 0, saturated := false, tally := 0 }
        losses := { value := 0, saturated := false, tally := 0 } } ∧
    l.acc.interval =
      { compared := { value := 0, saturated := false, tally := 0 }
        errored := { value := 0, saturated := false, tally := 0 }
        words := { value := 0, saturated := false, tally := 0 }
        gains := 0, losses := 0, injected := 0, firstError := none, sliceCompared := 0, sliceErrored := 0 } ∧
    l.acc.runLatch = false ∧ l.acc.intervalLatch = false

/-! ### What every step keeps -/

/-- Every invariant below holds right after reset. -/
def Obligations.ResetMeetsEveryInvariant : Prop :=
  StoreCanonical State.reset ∧ StoredInRange State.reset ∧ PendingOnlyInRun State.reset ∧
  CheckersSound State.reset ∧ TimersSound State.reset ∧ MarksSound State.reset ∧ AllCountsSound State.reset ∧
  RingsSound State.reset ∧ WalkersSound State.reset ∧ Settled State.reset ∧ OffersSound State.reset

/-- R2, R3, R29, R61, R118: every step keeps what is stored in its range. It keeps the Pattern Word Store of R11 in
its canonical form too, which is the model's (log 17). -/
def Obligations.StoredDataStaysInRange : Prop :=
  ∀ s t : State, step s = .next t →
    (StoreCanonical s → StoreCanonical t) ∧ (StoredInRange s → StoredInRange t)

/-- R79, R81, R94, R96: the slip score stays within T and is nonzero only in LOCKED, the verify progress stays below
V, and a checker in OFF or SEARCH holds no position, after every step. R116, R132, R133, R134: the class counts sum to
the slices closed, the worst-slice list stays ordered, a timer outside RUN holds nothing of an interval, and an
unavailable slice is marked, after every step. -/
def Obligations.CheckersAndTimersStaySound : Prop :=
  (∀ s t : State, CheckersSound s → step s = .next t → CheckersSound t) ∧
  ∀ s t : State, step s = .next t → (TimersSound s → TimersSound t) ∧ (MarksSound s → MarksSound t)

/-- R106, R108, R133: errored counts stay within their compared counts (the interval's and the run's in SATURATE mode,
the slice's always), and a first-error offset below the interval's compared bits, after every step. -/
def Obligations.CountsStaySound : Prop :=
  ∀ s t : State, AllCountsSound s → step s = .next t → AllCountsSound t

/-- R150, R151: a ring holds at most 16 records with consecutive numbers up to next_seq − 1, and no port's unread
records exceed those held, after every step. -/
def Obligations.RingsStaySound : Prop :=
  ∀ s t : State, RingsSound s → step s = .next t → RingsSound t

/-- R12, R35: while a walker is active its plan is VALID and marks defined segments, and it stands within them, after
every step. -/
def Obligations.WalkersStaySound : Prop :=
  ∀ s t : State, WalkersSound s → step s = .next t → WalkersSound t

/-- R48, R51, R130, R131, R173: no event that the part takes by itself is left due after every step; that such an
event is settled inside the step that makes it due is the model's reading (log 6). R124, R183: a chain offer, which is
the model's own (log 7), stands only at a waiting follower, and a port owes only what stands, after every step. R44: a
generator holds a pending trigger only in RUNNING or PAUSING, after every step. -/
def Obligations.NothingIsLeftDueOrPending : Prop :=
  (∀ s t : State, step s = .next t → (Settled s → Settled t) ∧ (OffersSound s → OffersSound t)) ∧
  ∀ s t : State, PendingOnlyInRun s → step s = .next t → PendingOnlyInRun t

/-- R35, R76, R151, R162: in states of R35 and R151, every command that the part can receive has a next state, so that
the stops of logs 14 and 15 do not arise. -/
def Obligations.SoundStatesNeverStop : Prop :=
  ∀ (c : Instr) (s : State), c.WellFormed = true → WalkersSound s → RingsSound s → ∃ t, exec c s = .next t

/-- R1, R11, R12, R165, R178: the shared tables change only by their own commands: segment records, use sets, the word
store, the holders, and the RESTARTED flag. -/
def Obligations.OnlyTheirCommandsChangeTheTables : Prop :=
  ∀ (c : Instr) (s t : State), exec c s = .next t → c ≠ .deviceReset →
    ((∀ p args, c ≠ .segWrite p args ∧ c ≠ .segClear p args) → ∀ i, t.record i = s.record i) ∧
    ((∀ p args, c ≠ .laneStart p args ∧ c ≠ .laneHalt p args ∧ c ≠ .checkStart p args ∧ c ≠ .checkStop p args) →
      ∀ i, (t.seg i).useSet = (s.seg i).useSet) ∧
    ((∀ p args, c ≠ .wordWrite p args) → t.store = s.store) ∧
    ((∀ p args, c ≠ .reserve p args ∧ c ≠ .release p args ∧ c ≠ .portReset p args) → t.holders = s.holders) ∧
    ∀ p : Port, (t.port p).view.pending.getLsbD 25 = true → (s.port p).view.pending.getLsbD 25 = true

/-- R165, R168: a lane held by one port is not changed by the other port's frames, beside what such a frame finds
already owed to the lane's timer (R183, log 7). There are two exceptions: SEG_WRITE or SEG_CLEAR of a segment that the
lane's plan reaches takes its VALID, with verdict CHANGED and that segment (R34), and GATE_TRIGGER in RUN on the lane
that its waiting timer chains on offers it a close (R124; the offer is the model's, log 7). -/
def Obligations.ReservationGuardsTheLane : Prop :=
  ∀ (c : Instr) (f : Select) (bs : List Byte) (n : Lane) (s t u : State), frameBytes c = some (f, bs) →
    s.holder (laneResource n) = some (otherPort f.port) → exec c s = .next t → u = foundBy f s →
    t.holder (laneResource n) = some (otherPort f.port) ∧
    t.lane n = { u.lane n with
      plan := (t.lane n).plan
      timer := { (u.lane n).timer with chainOffer := (t.lane n).timer.chainOffer } } ∧
    ((t.lane n).plan = (u.lane n).plan ∨
      ∃ i : Fin 64, (u.lane n).plan.reach.getLsbD i.val = true ∧
        ((∃ args, c = .segWrite f args ∧ (s.port f.port).segCursor = i.castSucc) ∨
          c = .segClear f [BitVec.ofNat 8 i.val]) ∧
        (t.lane n).plan = { (u.lane n).plan with valid := false, verdict := .changed, verdictSeg := i }) ∧
    ((t.lane n).timer.chainOffer = (u.lane n).timer.chainOffer ∨
      ∃ m : Lane, c = .gateTrigger f [laneCode m] ∧ (u.lane m).timer.state = .run ∧ (u.lane n).timer.state = .wait ∧
        (u.lane n).timer.config.trigger = .chain m ∧
        (t.lane n).timer.chainOffer =
          { standing := true
            owedA := (u.lane n).timer.chainOffer.owedA || f.port == .a
            owedB := (u.lane n).timer.chainOffer.owedB || f.port == .b })

/-- R14, R151, R160, R161, R163, R170, R172, R177: a frame on one port leaves the other port's response, cursors into
the tables, enable set, H, hold-off timer and reservations alone. It clears no pending flag of the other view and
raises neither FRAME_FAULT nor RESTARTED there; only a command that may close an interval raises a flag,
INTERVAL_CLOSED or THRESHOLD of the lane it names, and only that or RESULT_CLEAR moves the other port's result cursor,
on that lane. -/
def Obligations.PortsDoNotReachEachOther : Prop :=
  ∀ (c : Instr) (f : Select) (bs : List Byte) (s t : State) (v u : PortState), frameBytes c = some (f, bs) →
    exec c s = .next t → v = s.port (otherPort f.port) → u = t.port (otherPort f.port) →
    u.response = v.response ∧ u.shiftedOut = v.shiftedOut ∧ u.segCursor = v.segCursor ∧ u.wordCursor = v.wordCursor ∧
    u.view.enable = v.view.enable ∧ u.view.length = v.view.length ∧ u.view.holdoff = v.view.holdoff ∧
    (∀ k, v.view.pending.getLsbD k = true → u.view.pending.getLsbD k = true) ∧
    (∀ k, u.view.pending.getLsbD k = true → v.view.pending.getLsbD k = true ∨
      ∃ n : Lane, (k = 6 * n.val + 3 ∨ k = 6 * n.val + 4) ∧
        (c = .gateTrigger f [laneCode n] ∨ c = .gateStop f [laneCode n] ∨ c = .checkStop f [laneCode n])) ∧
    (∀ n : Lane, u.results[n] = v.results[n] ∨ c = .gateTrigger f [laneCode n] ∨ c = .gateStop f [laneCode n] ∨
      c = .checkStop f [laneCode n] ∨ c = .resultClear f [laneCode n]) ∧
    ∀ r : Fin 20, s.holder r = some (otherPort f.port) ↔ t.holder r = some (otherPort f.port)

/-- R124, R183: a frame finds the whole effect of its port's earlier commands in place: every follower that a
GATE_TRIGGER of the port owes its start is in a fresh interval before the frame's command is taken. So the follower
that waits when its source is retriggered from a port is in RUN for that port's next frame, unless it has left WAIT in
between. That the owed start is a field of the state, and that it may come earlier as CHAIN_START, is the model's (log
7). -/
def Obligations.FramesFindEarlierEffects : Prop :=
  (∀ (c : Instr) (f : Select) (bs : List Byte) (s u : State), c.WellFormed = true → frameBytes c = some (f, bs) →
    s.resetPhase = .released → f.early = false →
    u = { s with lanes := s.lanes.map fun l =>
      if l.timer.chainOffer.owed f.port = true ∧ l.timer.chainOffer.standing = true ∧ l.timer.state = .wait then
        freshInterval l
      else l } →
    exec c s = exec c u ∧ (OffersSound s → FramesTaken u f.port)) ∧
  ∀ (c : Instr) (p : Port) (bs : List Byte) (m n : Lane) (s t : State), LaneOpen s p m →
    (s.lane m).timer.state = .run → n ≠ m → (s.lane n).timer.state = .wait →
    (s.lane n).timer.config.trigger = .chain m → exec (.gateTrigger p.frame [laneCode m]) s = .next t →
    c.WellFormed = true → frameBytes c = some (p.frame, bs) →
    exec c t = exec c (t.startOwed p) ∧ (t.lane n).timer.state = .wait ∧
      (t.startOwed p).lane n = freshInterval (t.lane n)

end
end

