-- ==== Sys2Proof/Laws/State.lean ====
section
/-!
SUPPORT. What each named update leaves as it was and what it puts in place, so that no later proof unfolds a record
update.
-/

namespace Sys2Proof.Machine

/-! ### What an update leaves alone -/

@[simp] theorem State.setLane_segs (s : State) (n : Lane) (l : LaneState) : (s.setLane n l).segs = s.segs := rfl
@[simp] theorem State.setLane_store (s : State) (n : Lane) (l : LaneState) : (s.setLane n l).store = s.store := rfl
@[simp] theorem State.setLane_portA (s : State) (n : Lane) (l : LaneState) : (s.setLane n l).portA = s.portA := rfl
@[simp] theorem State.setLane_portB (s : State) (n : Lane) (l : LaneState) : (s.setLane n l).portB = s.portB := rfl
@[simp] theorem State.setLane_holders (s : State) (n : Lane) (l : LaneState) : (s.setLane n l).holders = s.holders := rfl
@[simp] theorem State.setLane_resetPhase (s : State) (n : Lane) (l : LaneState) : (s.setLane n l).resetPhase = s.resetPhase := rfl
@[simp] theorem State.setLane_freeCount (s : State) (n : Lane) (l : LaneState) : (s.setLane n l).freeCount = s.freeCount := rfl
@[simp] theorem State.setLane_pending (s : State) (n : Lane) (l : LaneState) : (s.setLane n l).pending = s.pending := rfl
@[simp] theorem State.setLane_seg (s : State) (n : Lane) (l : LaneState) (j : Fin 64) : (s.setLane n l).seg j = s.seg j := rfl
@[simp] theorem State.setLane_record (s : State) (n : Lane) (l : LaneState) (j : Fin 64) : (s.setLane n l).record j = s.record j := rfl
@[simp] theorem State.setLane_holder (s : State) (n : Lane) (l : LaneState) (j : Fin 20) : (s.setLane n l).holder j = s.holder j := rfl
@[simp] theorem State.setLane_port (s : State) (n : Lane) (l : LaneState) (q : Port) : (s.setLane n l).port q = s.port q := by cases q <;> simp only [State.port, State.setLane_portA, State.setLane_portB]

@[simp] theorem State.modLane_segs (s : State) (n : Lane) (f : LaneState → LaneState) : (s.modLane n f).segs = s.segs := rfl
@[simp] theorem State.modLane_store (s : State) (n : Lane) (f : LaneState → LaneState) : (s.modLane n f).store = s.store := rfl
@[simp] theorem State.modLane_portA (s : State) (n : Lane) (f : LaneState → LaneState) : (s.modLane n f).portA = s.portA := rfl
@[simp] theorem State.modLane_portB (s : State) (n : Lane) (f : LaneState → LaneState) : (s.modLane n f).portB = s.portB := rfl
@[simp] theorem State.modLane_holders (s : State) (n : Lane) (f : LaneState → LaneState) : (s.modLane n f).holders = s.holders := rfl
@[simp] theorem State.modLane_resetPhase (s : State) (n : Lane) (f : LaneState → LaneState) : (s.modLane n f).resetPhase = s.resetPhase := rfl
@[simp] theorem State.modLane_freeCount (s : State) (n : Lane) (f : LaneState → LaneState) : (s.modLane n f).freeCount = s.freeCount := rfl
@[simp] theorem State.modLane_pending (s : State) (n : Lane) (f : LaneState → LaneState) : (s.modLane n f).pending = s.pending := rfl
@[simp] theorem State.modLane_seg (s : State) (n : Lane) (f : LaneState → LaneState) (j : Fin 64) : (s.modLane n f).seg j = s.seg j := rfl
@[simp] theorem State.modLane_record (s : State) (n : Lane) (f : LaneState → LaneState) (j : Fin 64) : (s.modLane n f).record j = s.record j := rfl
@[simp] theorem State.modLane_holder (s : State) (n : Lane) (f : LaneState → LaneState) (j : Fin 20) : (s.modLane n f).holder j = s.holder j := rfl
@[simp] theorem State.modLane_port (s : State) (n : Lane) (f : LaneState → LaneState) (q : Port) : (s.modLane n f).port q = s.port q := by cases q <;> simp only [State.port, State.modLane_portA, State.modLane_portB]

@[simp] theorem State.setPort_segs (s : State) (p : Port) (v : PortState) : (s.setPort p v).segs = s.segs := by cases p <;> rfl
@[simp] theorem State.setPort_store (s : State) (p : Port) (v : PortState) : (s.setPort p v).store = s.store := by cases p <;> rfl
@[simp] theorem State.setPort_lanes (s : State) (p : Port) (v : PortState) : (s.setPort p v).lanes = s.lanes := by cases p <;> rfl
@[simp] theorem State.setPort_holders (s : State) (p : Port) (v : PortState) : (s.setPort p v).holders = s.holders := by cases p <;> rfl
@[simp] theorem State.setPort_resetPhase (s : State) (p : Port) (v : PortState) : (s.setPort p v).resetPhase = s.resetPhase := by cases p <;> rfl
@[simp] theorem State.setPort_freeCount (s : State) (p : Port) (v : PortState) : (s.setPort p v).freeCount = s.freeCount := by cases p <;> rfl
@[simp] theorem State.setPort_pending (s : State) (p : Port) (v : PortState) : (s.setPort p v).pending = s.pending := by cases p <;> rfl
@[simp] theorem State.setPort_lane (s : State) (p : Port) (v : PortState) (m : Lane) : (s.setPort p v).lane m = s.lane m := by cases p <;> rfl
@[simp] theorem State.setPort_seg (s : State) (p : Port) (v : PortState) (j : Fin 64) : (s.setPort p v).seg j = s.seg j := by cases p <;> rfl
@[simp] theorem State.setPort_record (s : State) (p : Port) (v : PortState) (j : Fin 64) : (s.setPort p v).record j = s.record j := by cases p <;> rfl
@[simp] theorem State.setPort_holder (s : State) (p : Port) (v : PortState) (j : Fin 20) : (s.setPort p v).holder j = s.holder j := by cases p <;> rfl

@[simp] theorem State.modPort_segs (s : State) (p : Port) (f : PortState → PortState) : (s.modPort p f).segs = s.segs := by cases p <;> rfl
@[simp] theorem State.modPort_store (s : State) (p : Port) (f : PortState → PortState) : (s.modPort p f).store = s.store := by cases p <;> rfl
@[simp] theorem State.modPort_lanes (s : State) (p : Port) (f : PortState → PortState) : (s.modPort p f).lanes = s.lanes := by cases p <;> rfl
@[simp] theorem State.modPort_holders (s : State) (p : Port) (f : PortState → PortState) : (s.modPort p f).holders = s.holders := by cases p <;> rfl
@[simp] theorem State.modPort_resetPhase (s : State) (p : Port) (f : PortState → PortState) : (s.modPort p f).resetPhase = s.resetPhase := by cases p <;> rfl
@[simp] theorem State.modPort_freeCount (s : State) (p : Port) (f : PortState → PortState) : (s.modPort p f).freeCount = s.freeCount := by cases p <;> rfl
@[simp] theorem State.modPort_pending (s : State) (p : Port) (f : PortState → PortState) : (s.modPort p f).pending = s.pending := by cases p <;> rfl
@[simp] theorem State.modPort_lane (s : State) (p : Port) (f : PortState → PortState) (m : Lane) : (s.modPort p f).lane m = s.lane m := by cases p <;> rfl
@[simp] theorem State.modPort_seg (s : State) (p : Port) (f : PortState → PortState) (j : Fin 64) : (s.modPort p f).seg j = s.seg j := by cases p <;> rfl
@[simp] theorem State.modPort_record (s : State) (p : Port) (f : PortState → PortState) (j : Fin 64) : (s.modPort p f).record j = s.record j := by cases p <;> rfl
@[simp] theorem State.modPort_holder (s : State) (p : Port) (f : PortState → PortState) (j : Fin 20) : (s.modPort p f).holder j = s.holder j := by cases p <;> rfl

@[simp] theorem State.modPorts_segs (s : State) (f : PortState → PortState) : (s.modPorts f).segs = s.segs := rfl
@[simp] theorem State.modPorts_store (s : State) (f : PortState → PortState) : (s.modPorts f).store = s.store := rfl
@[simp] theorem State.modPorts_lanes (s : State) (f : PortState → PortState) : (s.modPorts f).lanes = s.lanes := rfl
@[simp] theorem State.modPorts_holders (s : State) (f : PortState → PortState) : (s.modPorts f).holders = s.holders := rfl
@[simp] theorem State.modPorts_resetPhase (s : State) (f : PortState → PortState) : (s.modPorts f).resetPhase = s.resetPhase := rfl
@[simp] theorem State.modPorts_freeCount (s : State) (f : PortState → PortState) : (s.modPorts f).freeCount = s.freeCount := rfl
@[simp] theorem State.modPorts_pending (s : State) (f : PortState → PortState) : (s.modPorts f).pending = s.pending := rfl
@[simp] theorem State.modPorts_lane (s : State) (f : PortState → PortState) (m : Lane) : (s.modPorts f).lane m = s.lane m := rfl
@[simp] theorem State.modPorts_seg (s : State) (f : PortState → PortState) (j : Fin 64) : (s.modPorts f).seg j = s.seg j := rfl
@[simp] theorem State.modPorts_record (s : State) (f : PortState → PortState) (j : Fin 64) : (s.modPorts f).record j = s.record j := rfl
@[simp] theorem State.modPorts_holder (s : State) (f : PortState → PortState) (j : Fin 20) : (s.modPorts f).holder j = s.holder j := rfl

@[simp] theorem State.setSeg_store (s : State) (i : Fin 64) (v : SegSlot) : (s.setSeg i v).store = s.store := rfl
@[simp] theorem State.setSeg_lanes (s : State) (i : Fin 64) (v : SegSlot) : (s.setSeg i v).lanes = s.lanes := rfl
@[simp] theorem State.setSeg_portA (s : State) (i : Fin 64) (v : SegSlot) : (s.setSeg i v).portA = s.portA := rfl
@[simp] theorem State.setSeg_portB (s : State) (i : Fin 64) (v : SegSlot) : (s.setSeg i v).portB = s.portB := rfl
@[simp] theorem State.setSeg_holders (s : State) (i : Fin 64) (v : SegSlot) : (s.setSeg i v).holders = s.holders := rfl
@[simp] theorem State.setSeg_resetPhase (s : State) (i : Fin 64) (v : SegSlot) : (s.setSeg i v).resetPhase = s.resetPhase := rfl
@[simp] theorem State.setSeg_freeCount (s : State) (i : Fin 64) (v : SegSlot) : (s.setSeg i v).freeCount = s.freeCount := rfl
@[simp] theorem State.setSeg_pending (s : State) (i : Fin 64) (v : SegSlot) : (s.setSeg i v).pending = s.pending := rfl
@[simp] theorem State.setSeg_lane (s : State) (i : Fin 64) (v : SegSlot) (m : Lane) : (s.setSeg i v).lane m = s.lane m := rfl
@[simp] theorem State.setSeg_holder (s : State) (i : Fin 64) (v : SegSlot) (j : Fin 20) : (s.setSeg i v).holder j = s.holder j := rfl
@[simp] theorem State.setSeg_port (s : State) (i : Fin 64) (v : SegSlot) (q : Port) : (s.setSeg i v).port q = s.port q := by cases q <;> simp only [State.port, State.setSeg_portA, State.setSeg_portB]

@[simp] theorem State.setHolder_segs (s : State) (r : Fin 20) (h : Option Port) : (s.setHolder r h).segs = s.segs := rfl
@[simp] theorem State.setHolder_store (s : State) (r : Fin 20) (h : Option Port) : (s.setHolder r h).store = s.store := rfl
@[simp] theorem State.setHolder_lanes (s : State) (r : Fin 20) (h : Option Port) : (s.setHolder r h).lanes = s.lanes := rfl
@[simp] theorem State.setHolder_portA (s : State) (r : Fin 20) (h : Option Port) : (s.setHolder r h).portA = s.portA := rfl
@[simp] theorem State.setHolder_portB (s : State) (r : Fin 20) (h : Option Port) : (s.setHolder r h).portB = s.portB := rfl
@[simp] theorem State.setHolder_resetPhase (s : State) (r : Fin 20) (h : Option Port) : (s.setHolder r h).resetPhase = s.resetPhase := rfl
@[simp] theorem State.setHolder_freeCount (s : State) (r : Fin 20) (h : Option Port) : (s.setHolder r h).freeCount = s.freeCount := rfl
@[simp] theorem State.setHolder_pending (s : State) (r : Fin 20) (h : Option Port) : (s.setHolder r h).pending = s.pending := rfl
@[simp] theorem State.setHolder_lane (s : State) (r : Fin 20) (h : Option Port) (m : Lane) : (s.setHolder r h).lane m = s.lane m := rfl
@[simp] theorem State.setHolder_seg (s : State) (r : Fin 20) (h : Option Port) (j : Fin 64) : (s.setHolder r h).seg j = s.seg j := rfl
@[simp] theorem State.setHolder_record (s : State) (r : Fin 20) (h : Option Port) (j : Fin 64) : (s.setHolder r h).record j = s.record j := rfl
@[simp] theorem State.setHolder_port (s : State) (r : Fin 20) (h : Option Port) (q : Port) : (s.setHolder r h).port q = s.port q := by cases q <;> simp only [State.port, State.setHolder_portA, State.setHolder_portB]

@[simp] theorem State.useFree_segs (s : State) (k : Nat) : (s.useFree k).segs = s.segs := rfl
@[simp] theorem State.useFree_store (s : State) (k : Nat) : (s.useFree k).store = s.store := rfl
@[simp] theorem State.useFree_lanes (s : State) (k : Nat) : (s.useFree k).lanes = s.lanes := rfl
@[simp] theorem State.useFree_portA (s : State) (k : Nat) : (s.useFree k).portA = s.portA := rfl
@[simp] theorem State.useFree_portB (s : State) (k : Nat) : (s.useFree k).portB = s.portB := rfl
@[simp] theorem State.useFree_holders (s : State) (k : Nat) : (s.useFree k).holders = s.holders := rfl
@[simp] theorem State.useFree_resetPhase (s : State) (k : Nat) : (s.useFree k).resetPhase = s.resetPhase := rfl
@[simp] theorem State.useFree_pending (s : State) (k : Nat) : (s.useFree k).pending = s.pending := rfl
@[simp] theorem State.useFree_lane (s : State) (k : Nat) (m : Lane) : (s.useFree k).lane m = s.lane m := rfl
@[simp] theorem State.useFree_seg (s : State) (k : Nat) (j : Fin 64) : (s.useFree k).seg j = s.seg j := rfl
@[simp] theorem State.useFree_record (s : State) (k : Nat) (j : Fin 64) : (s.useFree k).record j = s.record j := rfl
@[simp] theorem State.useFree_holder (s : State) (k : Nat) (j : Fin 20) : (s.useFree k).holder j = s.holder j := rfl
@[simp] theorem State.useFree_port (s : State) (k : Nat) (q : Port) : (s.useFree k).port q = s.port q := by cases q <;> simp only [State.port, State.useFree_portA, State.useFree_portB]

@[simp] theorem State.respond_segs (s : State) (p : Port) (r : Response) : (s.respond p r).segs = s.segs := by cases p <;> rfl
@[simp] theorem State.respond_store (s : State) (p : Port) (r : Response) : (s.respond p r).store = s.store := by cases p <;> rfl
@[simp] theorem State.respond_lanes (s : State) (p : Port) (r : Response) : (s.respond p r).lanes = s.lanes := by cases p <;> rfl
@[simp] theorem State.respond_holders (s : State) (p : Port) (r : Response) : (s.respond p r).holders = s.holders := by cases p <;> rfl
@[simp] theorem State.respond_resetPhase (s : State) (p : Port) (r : Response) : (s.respond p r).resetPhase = s.resetPhase := by cases p <;> rfl
@[simp] theorem State.respond_freeCount (s : State) (p : Port) (r : Response) : (s.respond p r).freeCount = s.freeCount := by cases p <;> rfl
@[simp] theorem State.respond_pending (s : State) (p : Port) (r : Response) : (s.respond p r).pending = s.pending := by cases p <;> rfl
@[simp] theorem State.respond_lane (s : State) (p : Port) (r : Response) (m : Lane) : (s.respond p r).lane m = s.lane m := by cases p <;> rfl
@[simp] theorem State.respond_seg (s : State) (p : Port) (r : Response) (j : Fin 64) : (s.respond p r).seg j = s.seg j := by cases p <;> rfl
@[simp] theorem State.respond_record (s : State) (p : Port) (r : Response) (j : Fin 64) : (s.respond p r).record j = s.record j := by cases p <;> rfl
@[simp] theorem State.respond_holder (s : State) (p : Port) (r : Response) (j : Fin 20) : (s.respond p r).holder j = s.holder j := by cases p <;> rfl

@[simp] theorem State.shifted_segs (s : State) (p : Port) (len : Nat) : (s.shifted p len).segs = s.segs := by cases p <;> rfl
@[simp] theorem State.shifted_store (s : State) (p : Port) (len : Nat) : (s.shifted p len).store = s.store := by cases p <;> rfl
@[simp] theorem State.shifted_lanes (s : State) (p : Port) (len : Nat) : (s.shifted p len).lanes = s.lanes := by cases p <;> rfl
@[simp] theorem State.shifted_holders (s : State) (p : Port) (len : Nat) : (s.shifted p len).holders = s.holders := by cases p <;> rfl
@[simp] theorem State.shifted_resetPhase (s : State) (p : Port) (len : Nat) : (s.shifted p len).resetPhase = s.resetPhase := by cases p <;> rfl
@[simp] theorem State.shifted_freeCount (s : State) (p : Port) (len : Nat) : (s.shifted p len).freeCount = s.freeCount := by cases p <;> rfl
@[simp] theorem State.shifted_pending (s : State) (p : Port) (len : Nat) : (s.shifted p len).pending = s.pending := by cases p <;> rfl
@[simp] theorem State.shifted_lane (s : State) (p : Port) (len : Nat) (m : Lane) : (s.shifted p len).lane m = s.lane m := by cases p <;> rfl
@[simp] theorem State.shifted_seg (s : State) (p : Port) (len : Nat) (j : Fin 64) : (s.shifted p len).seg j = s.seg j := by cases p <;> rfl
@[simp] theorem State.shifted_record (s : State) (p : Port) (len : Nat) (j : Fin 64) : (s.shifted p len).record j = s.record j := by cases p <;> rfl
@[simp] theorem State.shifted_holder (s : State) (p : Port) (len : Nat) (j : Fin 20) : (s.shifted p len).holder j = s.holder j := by cases p <;> rfl

@[simp] theorem State.raiseFrameFault_segs (s : State) (p : Port) : (s.raiseFrameFault p).segs = s.segs := by cases p <;> rfl
@[simp] theorem State.raiseFrameFault_store (s : State) (p : Port) : (s.raiseFrameFault p).store = s.store := by cases p <;> rfl
@[simp] theorem State.raiseFrameFault_lanes (s : State) (p : Port) : (s.raiseFrameFault p).lanes = s.lanes := by cases p <;> rfl
@[simp] theorem State.raiseFrameFault_holders (s : State) (p : Port) : (s.raiseFrameFault p).holders = s.holders := by cases p <;> rfl
@[simp] theorem State.raiseFrameFault_resetPhase (s : State) (p : Port) : (s.raiseFrameFault p).resetPhase = s.resetPhase := by cases p <;> rfl
@[simp] theorem State.raiseFrameFault_freeCount (s : State) (p : Port) : (s.raiseFrameFault p).freeCount = s.freeCount := by cases p <;> rfl
@[simp] theorem State.raiseFrameFault_pending (s : State) (p : Port) : (s.raiseFrameFault p).pending = s.pending := by cases p <;> rfl
@[simp] theorem State.raiseFrameFault_lane (s : State) (p : Port) (m : Lane) : (s.raiseFrameFault p).lane m = s.lane m := by cases p <;> rfl
@[simp] theorem State.raiseFrameFault_seg (s : State) (p : Port) (j : Fin 64) : (s.raiseFrameFault p).seg j = s.seg j := by cases p <;> rfl
@[simp] theorem State.raiseFrameFault_record (s : State) (p : Port) (j : Fin 64) : (s.raiseFrameFault p).record j = s.record j := by cases p <;> rfl
@[simp] theorem State.raiseFrameFault_holder (s : State) (p : Port) (j : Fin 20) : (s.raiseFrameFault p).holder j = s.holder j := by cases p <;> rfl

@[simp] theorem State.raise_segs (s : State) (e : Event) : (s.raise e).segs = s.segs := rfl
@[simp] theorem State.raise_store (s : State) (e : Event) : (s.raise e).store = s.store := rfl
@[simp] theorem State.raise_lanes (s : State) (e : Event) : (s.raise e).lanes = s.lanes := rfl
@[simp] theorem State.raise_holders (s : State) (e : Event) : (s.raise e).holders = s.holders := rfl
@[simp] theorem State.raise_resetPhase (s : State) (e : Event) : (s.raise e).resetPhase = s.resetPhase := rfl
@[simp] theorem State.raise_freeCount (s : State) (e : Event) : (s.raise e).freeCount = s.freeCount := rfl
@[simp] theorem State.raise_pending (s : State) (e : Event) : (s.raise e).pending = s.pending := rfl
@[simp] theorem State.raise_lane (s : State) (e : Event) (m : Lane) : (s.raise e).lane m = s.lane m := rfl
@[simp] theorem State.raise_seg (s : State) (e : Event) (j : Fin 64) : (s.raise e).seg j = s.seg j := rfl
@[simp] theorem State.raise_record (s : State) (e : Event) (j : Fin 64) : (s.raise e).record j = s.record j := rfl
@[simp] theorem State.raise_holder (s : State) (e : Event) (j : Fin 20) : (s.raise e).holder j = s.holder j := rfl

@[simp] theorem State.mark_store (s : State) (reach : BitVec 64) (w : Walker) : (s.mark reach w).store = s.store := by simp only [State.mark]
@[simp] theorem State.mark_lanes (s : State) (reach : BitVec 64) (w : Walker) : (s.mark reach w).lanes = s.lanes := by simp only [State.mark]
@[simp] theorem State.mark_portA (s : State) (reach : BitVec 64) (w : Walker) : (s.mark reach w).portA = s.portA := by simp only [State.mark]
@[simp] theorem State.mark_portB (s : State) (reach : BitVec 64) (w : Walker) : (s.mark reach w).portB = s.portB := by simp only [State.mark]
@[simp] theorem State.mark_holders (s : State) (reach : BitVec 64) (w : Walker) : (s.mark reach w).holders = s.holders := by simp only [State.mark]
@[simp] theorem State.mark_resetPhase (s : State) (reach : BitVec 64) (w : Walker) : (s.mark reach w).resetPhase = s.resetPhase := by simp only [State.mark]
@[simp] theorem State.mark_freeCount (s : State) (reach : BitVec 64) (w : Walker) : (s.mark reach w).freeCount = s.freeCount := by simp only [State.mark]
@[simp] theorem State.mark_pending (s : State) (reach : BitVec 64) (w : Walker) : (s.mark reach w).pending = s.pending := by simp only [State.mark]
@[simp] theorem State.mark_lane (s : State) (reach : BitVec 64) (w : Walker) (m : Lane) : (s.mark reach w).lane m = s.lane m := by simp only [State.lane, State.mark_lanes]
@[simp] theorem State.mark_holder (s : State) (reach : BitVec 64) (w : Walker) (j : Fin 20) : (s.mark reach w).holder j = s.holder j := by simp only [State.holder, State.mark_holders]
@[simp] theorem State.mark_port (s : State) (reach : BitVec 64) (w : Walker) (q : Port) : (s.mark reach w).port q = s.port q := by cases q <;> simp only [State.port, State.mark_portA, State.mark_portB]

@[simp] theorem State.unmark_store (s : State) (w : Walker) : (s.unmark w).store = s.store := by simp only [State.unmark]
@[simp] theorem State.unmark_lanes (s : State) (w : Walker) : (s.unmark w).lanes = s.lanes := by simp only [State.unmark]
@[simp] theorem State.unmark_portA (s : State) (w : Walker) : (s.unmark w).portA = s.portA := by simp only [State.unmark]
@[simp] theorem State.unmark_portB (s : State) (w : Walker) : (s.unmark w).portB = s.portB := by simp only [State.unmark]
@[simp] theorem State.unmark_holders (s : State) (w : Walker) : (s.unmark w).holders = s.holders := by simp only [State.unmark]
@[simp] theorem State.unmark_resetPhase (s : State) (w : Walker) : (s.unmark w).resetPhase = s.resetPhase := by simp only [State.unmark]
@[simp] theorem State.unmark_freeCount (s : State) (w : Walker) : (s.unmark w).freeCount = s.freeCount := by simp only [State.unmark]
@[simp] theorem State.unmark_pending (s : State) (w : Walker) : (s.unmark w).pending = s.pending := by simp only [State.unmark]
@[simp] theorem State.unmark_lane (s : State) (w : Walker) (m : Lane) : (s.unmark w).lane m = s.lane m := by simp only [State.lane, State.unmark_lanes]
@[simp] theorem State.unmark_holder (s : State) (w : Walker) (j : Fin 20) : (s.unmark w).holder j = s.holder j := by simp only [State.holder, State.unmark_holders]
@[simp] theorem State.unmark_port (s : State) (w : Walker) (q : Port) : (s.unmark w).port q = s.port q := by cases q <;> simp only [State.port, State.unmark_portA, State.unmark_portB]

/-! ### The queue's rest -/

@[simp] theorem State.withPending_segs (s : State) (q : List Instr) : { s with pending := q }.segs = s.segs := rfl
@[simp] theorem State.withPending_store (s : State) (q : List Instr) : { s with pending := q }.store = s.store := rfl
@[simp] theorem State.withPending_lanes (s : State) (q : List Instr) : { s with pending := q }.lanes = s.lanes := rfl
@[simp] theorem State.withPending_portA (s : State) (q : List Instr) : { s with pending := q }.portA = s.portA := rfl
@[simp] theorem State.withPending_portB (s : State) (q : List Instr) : { s with pending := q }.portB = s.portB := rfl
@[simp] theorem State.withPending_holders (s : State) (q : List Instr) : { s with pending := q }.holders = s.holders := rfl
@[simp] theorem State.withPending_resetPhase (s : State) (q : List Instr) : { s with pending := q }.resetPhase = s.resetPhase := rfl
@[simp] theorem State.withPending_freeCount (s : State) (q : List Instr) : { s with pending := q }.freeCount = s.freeCount := rfl
@[simp] theorem State.withPending_lane (s : State) (q : List Instr) (m : Lane) :
    { s with pending := q }.lane m = s.lane m := rfl
@[simp] theorem State.withPending_seg (s : State) (q : List Instr) (j : Fin 64) :
    { s with pending := q }.seg j = s.seg j := rfl
@[simp] theorem State.withPending_record (s : State) (q : List Instr) (j : Fin 64) :
    { s with pending := q }.record j = s.record j := rfl
@[simp] theorem State.withPending_holder (s : State) (q : List Instr) (j : Fin 20) :
    { s with pending := q }.holder j = s.holder j := rfl
@[simp] theorem State.withPending_port (s : State) (q : List Instr) (p : Port) :
    { s with pending := q }.port p = s.port p := by cases p <;> rfl

/-! ### What an update puts in place -/

@[simp] theorem State.setLane_lane (s : State) (n m : Lane) (l : LaneState) :
    (s.setLane n l).lane m = if m = n then l else s.lane m := by
  simp only [State.setLane, State.lane, Fin.getElem_fin, Vector.getElem_set, Fin.ext_iff, eq_comm]

@[simp] theorem State.modLane_lane (s : State) (n m : Lane) (f : LaneState → LaneState) :
    (s.modLane n f).lane m = if m = n then f (s.lane n) else s.lane m := by
  simp [State.modLane]

@[simp] theorem State.setPort_port (s : State) (p q : Port) (v : PortState) :
    (s.setPort p v).port q = if q = p then v else s.port q := by
  cases p <;> cases q <;> rfl

@[simp] theorem State.modPort_port (s : State) (p q : Port) (f : PortState → PortState) :
    (s.modPort p f).port q = if q = p then f (s.port p) else s.port q := by
  simp [State.modPort]

@[simp] theorem State.modPorts_port (s : State) (f : PortState → PortState) (q : Port) :
    (s.modPorts f).port q = f (s.port q) := by
  cases q <;> rfl

@[simp] theorem State.setSeg_seg (s : State) (i j : Fin 64) (v : SegSlot) :
    (s.setSeg i v).seg j = if j = i then v else s.seg j := by
  simp only [State.setSeg, State.seg, Fin.getElem_fin, Vector.getElem_set, Fin.ext_iff, eq_comm]

@[simp] theorem State.setSeg_record (s : State) (i j : Fin 64) (v : SegSlot) :
    (s.setSeg i v).record j = if j = i then v.record else s.record j := by
  simp only [State.record, State.setSeg_seg]
  split <;> rfl

@[simp] theorem State.setHolder_holder (s : State) (r q : Fin 20) (h : Option Port) :
    (s.setHolder r h).holder q = if q = r then h else s.holder q := by
  simp only [State.setHolder, State.holder, Fin.getElem_fin, Vector.getElem_set, Fin.ext_iff, eq_comm]

@[simp] theorem State.useFree_freeCount (s : State) (k : Nat) : (s.useFree k).freeCount = s.freeCount + k := rfl

@[simp] theorem State.respond_port (s : State) (p q : Port) (r : Response) :
    (s.respond p r).port q = if q = p then { s.port p with response := r } else s.port q := by
  simp [State.respond]

@[simp] theorem State.shifted_port (s : State) (p q : Port) (len : Nat) :
    (s.shifted p len).port q =
      if q = p then { s.port p with shiftedOut := shiftOut (s.port p).response len } else s.port q := by
  simp [State.shifted]

@[simp] theorem State.raiseFrameFault_port (s : State) (p q : Port) :
    (s.raiseFrameFault p).port q =
      if q = p then
        { s.port p with view := { (s.port p).view with pending := (s.port p).view.pending ||| frameFaultFlag } }
      else s.port q := by
  simp [State.raiseFrameFault]

@[simp] theorem State.raise_port (s : State) (e : Event) (q : Port) :
    (s.raise e).port q =
      { s.port q with view := { (s.port q).view with pending := (s.port q).view.pending ||| e.flag } } := by
  simp [State.raise]

@[simp] theorem State.mark_seg (s : State) (reach : BitVec 64) (w : Walker) (j : Fin 64) :
    (s.mark reach w).seg j =
      if reach.getLsbD j.val then { s.seg j with useSet := addUser (s.seg j).useSet w } else s.seg j := by
  simp [State.mark, State.seg]

@[simp] theorem State.mark_record (s : State) (reach : BitVec 64) (w : Walker) (j : Fin 64) :
    (s.mark reach w).record j = s.record j := by
  simp only [State.record, State.mark_seg]
  split <;> rfl

@[simp] theorem State.unmark_seg (s : State) (w : Walker) (j : Fin 64) :
    (s.unmark w).seg j = { s.seg j with useSet := removeUser (s.seg j).useSet w } := by
  simp [State.unmark, State.seg]

@[simp] theorem State.unmark_record (s : State) (w : Walker) (j : Fin 64) :
    (s.unmark w).record j = s.record j := by
  simp [State.record]

/-! ### Equal states -/

/-- Two states are equal when their parts are. -/
theorem State.ext_parts {s t : State} (hseg : ∀ i, s.seg i = t.seg i) (hstore : s.store = t.store)
    (hlane : ∀ n, s.lane n = t.lane n) (hport : ∀ p, s.port p = t.port p) (hholder : ∀ r, s.holder r = t.holder r)
    (hphase : s.resetPhase = t.resetPhase) (hfree : s.freeCount = t.freeCount) (hpend : s.pending = t.pending) :
    s = t := by
  cases s
  cases t
  have ha := hport .a
  have hb := hport .b
  simp only [State.port] at ha hb hstore hphase hfree hpend
  simp only [State.mk.injEq, ha, hb, hstore, hphase, hfree, hpend, and_true, true_and]
  refine ⟨?_, ?_, ?_⟩
  · exact Vector.ext fun i h => hseg ⟨i, h⟩
  · exact Vector.ext fun i h => hlane ⟨i, h⟩
  · exact Vector.ext fun i h => hholder ⟨i, h⟩

end Sys2Proof.Machine
end

