-- ==== Sys2Proof/Laws/Commands.lean ====
section
/-!
SUPPORT. What the frame of a port command can do, once for all of them: how it is answered, how its lane argument is
read, and the inversion of a command that answered a next state.
-/

namespace Sys2Proof.Machine

/-! ### Replies -/

/-- The old response shifted out and a new one put in place is a reply. -/
theorem shifted_respond (s : State) (p : Port) (len : Nat) (r : Response) :
    (s.shifted p len).respond p r = replied p len r s := by
  cases p <;> rfl

@[simp] theorem replied_segs (p : Port) (len : Nat) (r : Response) (s : State) : (replied p len r s).segs = s.segs := by
  cases p <;> rfl
@[simp] theorem replied_store (p : Port) (len : Nat) (r : Response) (s : State) :
    (replied p len r s).store = s.store := by cases p <;> rfl
@[simp] theorem replied_lanes (p : Port) (len : Nat) (r : Response) (s : State) :
    (replied p len r s).lanes = s.lanes := by cases p <;> rfl
@[simp] theorem replied_holders (p : Port) (len : Nat) (r : Response) (s : State) :
    (replied p len r s).holders = s.holders := by cases p <;> rfl
@[simp] theorem replied_resetPhase (p : Port) (len : Nat) (r : Response) (s : State) :
    (replied p len r s).resetPhase = s.resetPhase := by cases p <;> rfl
@[simp] theorem replied_freeCount (p : Port) (len : Nat) (r : Response) (s : State) :
    (replied p len r s).freeCount = s.freeCount := by cases p <;> rfl
@[simp] theorem replied_pending (p : Port) (len : Nat) (r : Response) (s : State) :
    (replied p len r s).pending = s.pending := by cases p <;> rfl
@[simp] theorem replied_lane (p : Port) (len : Nat) (r : Response) (s : State) (m : Lane) :
    (replied p len r s).lane m = s.lane m := by cases p <;> rfl
@[simp] theorem replied_seg (p : Port) (len : Nat) (r : Response) (s : State) (i : Fin 64) :
    (replied p len r s).seg i = s.seg i := by cases p <;> rfl
@[simp] theorem replied_record (p : Port) (len : Nat) (r : Response) (s : State) (i : Fin 64) :
    (replied p len r s).record i = s.record i := by cases p <;> rfl
@[simp] theorem replied_holder (p : Port) (len : Nat) (r : Response) (s : State) (i : Fin 20) :
    (replied p len r s).holder i = s.holder i := by cases p <;> rfl
@[simp] theorem replied_port (p : Port) (len : Nat) (r : Response) (s : State) (q : Port) :
    (replied p len r s).port q =
      if q = p then { s.port p with response := r, shiftedOut := shiftOut (s.port p).response len }
      else s.port q := by
  simp [replied]

/-! ### Holders and lane numbers -/

/-- A lane number is read back from its byte. -/
@[simp] theorem laneOfByte_laneCode (n : Lane) : laneOfByte (laneCode n) = some n := by
  revert n; decide

/-- A byte above 3 is no lane. -/
theorem laneOfByte_eq_none {b : Byte} (h : 4 ≤ b.toNat) : laneOfByte b = none := by
  simp [laneOfByte, Nat.not_lt.mpr h]

/-- A lane number argument comes from that lane's byte alone. -/
theorem laneOfByte_eq_some {b : Byte} {n : Lane} (h : laneOfByte b = some n) : b = laneCode n := by
  unfold laneOfByte at h
  split at h
  · cases h
    simp [laneCode]
  · cases h

@[simp] theorem segIndexOfByte_ofNat (i : Fin 64) : segIndexOfByte (BitVec.ofNat 8 i.val) = some i := by
  revert i; decide

@[simp] theorem resourceOfByte_ofNat (r : Fin 20) : resourceOfByte (BitVec.ofNat 8 r.val) = some r := by
  revert r; decide

/-- The other port of a port is not that port. -/
@[simp] theorem otherPort_ne (p : Port) : otherPort p ≠ p := by cases p <;> decide

@[simp] theorem otherPort_otherPort (p : Port) : otherPort (otherPort p) = p := by cases p <;> rfl

/-- A port that is not a port is the other one. -/
theorem eq_otherPort {p q : Port} (h : q ≠ p) : q = otherPort p := by
  cases p <;> cases q <;> simp_all [otherPort]

theorem heldByOther_eq_true {s : State} {p : Port} {r : Fin 20} :
    heldByOther s p r = true ↔ s.holder r = some (otherPort p) := by
  simp [heldByOther]

theorem heldByOther_eq_false {s : State} {p : Port} {r : Fin 20} :
    heldByOther s p r = false ↔ s.holder r ≠ some (otherPort p) := by
  simp [heldByOther]

@[simp] theorem heldByOther_shifted (s : State) (p q : Port) (len : Nat) (r : Fin 20) :
    heldByOther (s.shifted q len) p r = heldByOther s p r := by
  simp [heldByOther]

@[simp] theorem checkerPlan_shifted (s : State) (p : Port) (len : Nat) (n : Lane) :
    checkerPlan (s.shifted p len) n = checkerPlan s n := by
  simp [checkerPlan]

@[simp] theorem planInUse_shifted (s : State) (p : Port) (len : Nat) (n : Lane) :
    planInUse (s.shifted p len) n = planInUse s n := by
  simp [planInUse]

@[simp] theorem freeBytes_shifted (s : State) (p : Port) (len k : Nat) :
    freeBytes (s.shifted p len) k = freeBytes s k := by
  simp [freeBytes]

/-! ### What earlier commands owe (R183) -/

@[simp] theorem State.startOwed_segs (s : State) (p : Port) : (s.startOwed p).segs = s.segs := rfl
@[simp] theorem State.startOwed_store (s : State) (p : Port) : (s.startOwed p).store = s.store := rfl
@[simp] theorem State.startOwed_portA (s : State) (p : Port) : (s.startOwed p).portA = s.portA := rfl
@[simp] theorem State.startOwed_portB (s : State) (p : Port) : (s.startOwed p).portB = s.portB := rfl
@[simp] theorem State.startOwed_holders (s : State) (p : Port) : (s.startOwed p).holders = s.holders := rfl
@[simp] theorem State.startOwed_resetPhase (s : State) (p : Port) : (s.startOwed p).resetPhase = s.resetPhase := rfl
@[simp] theorem State.startOwed_freeCount (s : State) (p : Port) : (s.startOwed p).freeCount = s.freeCount := rfl
@[simp] theorem State.startOwed_pending (s : State) (p : Port) : (s.startOwed p).pending = s.pending := rfl
@[simp] theorem State.startOwed_seg (s : State) (p : Port) (i : Fin 64) : (s.startOwed p).seg i = s.seg i := rfl
@[simp] theorem State.startOwed_record (s : State) (p : Port) (i : Fin 64) : (s.startOwed p).record i = s.record i := rfl
@[simp] theorem State.startOwed_holder (s : State) (p : Port) (r : Fin 20) : (s.startOwed p).holder r = s.holder r := rfl
@[simp] theorem State.startOwed_port (s : State) (p q : Port) : (s.startOwed p).port q = s.port q := by cases q <;> rfl
@[simp] theorem State.startOwed_lane (s : State) (p : Port) (n : Lane) :
    (s.startOwed p).lane n = startOwedAt p (s.lane n) := by
  simp [State.startOwed, State.lane]

/-- All that an owed start can do to a lane: nothing, or a fresh interval at a timer that waits on a close it was
offered. -/
theorem startOwedAt_cases (p : Port) (l : LaneState) :
    startOwedAt p l = l ∨
    (l.timer.chainOffer.owed p = true ∧ l.timer.chainOffer.standing = true ∧ l.timer.state = .wait ∧
      startOwedAt p l = startInterval l) := by
  simp only [startOwedAt, chainStartIfDue]
  split
  · split
    · simp_all
    · exact .inl rfl
  · exact .inl rfl

/-- A lane that owes port `p` nothing is left alone. -/
@[simp] theorem startOwedAt_eq_self {p : Port} {l : LaneState} (h : l.timer.chainOffer.owed p = false) :
    startOwedAt p l = l := by
  simp [startOwedAt, h]

/-- With the effect of the port's earlier commands in place, nothing is left to do before its frame. -/
theorem startOwed_eq_self {s : State} {p : Port} (h : FramesTaken s p) : s.startOwed p = s := by
  have hl : s.lanes.map (startOwedAt p) = s.lanes := by
    ext i hi
    have he : startOwedAt p s.lanes[i] = s.lanes[i] := startOwedAt_eq_self (h.2 ⟨i, hi⟩)
    simp [he]
  simp [State.startOwed, hl]

/-- An owed start comes once. -/
theorem startOwed_idem (s : State) (p : Port) (h : OffersSound s) : (s.startOwed p).startOwed p = s.startOwed p := by
  have hl : (s.lanes.map (startOwedAt p)).map (startOwedAt p) = s.lanes.map (startOwedAt p) := by
    ext i hi
    have hn := h ⟨i, hi⟩
    rcases startOwedAt_cases p (s.lane ⟨i, hi⟩) with he | ⟨-, -, -, he⟩ <;>
      simp only [State.lane, Fin.getElem_fin] at he hn
    · simp [he]
    · simp only [Vector.getElem_map, he]
      rw [startOwedAt_eq_self]
      cases p <;> rfl
  simp [State.startOwed, hl]

/-! ### How a command is answered -/

@[simp] theorem Port.frame_port (p : Port) : p.frame.port = p := rfl
@[simp] theorem Port.frame_early (p : Port) : p.frame.early = false := rfl

/-- A frame is taken in the state that its port's earlier commands leave. -/
theorem frameEnds_frame {s : State} (h : s.resetPhase = .released) (p : Port)
    (carried : State → Host.Outcome State Fault Refusal) : frameEnds p.frame s carried = carried (s.startOwed p) := by
  simp [frameEnds, Port.frame, h]

/-- A frame that finds its port's earlier commands done is taken as it stands. -/
theorem frameEnds_taken {s : State} {p : Port} (h : FramesTaken s p)
    (carried : State → Host.Outcome State Fault Refusal) : frameEnds p.frame s carried = carried s := by
  rw [frameEnds_frame h.1, startOwed_eq_self h]

/-- While RESET_N is low, and for a select activity that began too early, nothing changes. -/
theorem frameEnds_ignored {s : State} {f : Select} (h : s.resetPhase = .held ∨ f.early = true)
    (carried : State → Host.Outcome State Fault Refusal) : frameEnds f s carried = .next s := by
  rcases h with h | h <;> simp [frameEnds, h]

/-- All that the end of a select activity can do: nothing, or what the frame carries over the state that its port's
earlier commands leave. -/
theorem frameEnds_next {s t : State} {f : Select} {carried : State → Host.Outcome State Fault Refusal}
    (h : frameEnds f s carried = .next t) :
    t = s ∨ (s.resetPhase = .released ∧ f.early = false ∧ carried (s.startOwed f.port) = .next t) := by
  unfold frameEnds at h
  split at h
  · rename_i hf
    exact .inr ⟨hf.1, hf.2, h⟩
  · cases h
    exact .inl rfl

/-- A frame that the part takes runs its command's body and settles the answer. -/
theorem portCommand_taken {s : State} {p : Port} (h : FramesTaken s p) (code : Byte) (args : List Byte)
    (body : State → Answer) :
    portCommand p.frame code args body s =
      settleAnswer p code (s.shifted p (1 + args.length)) (body (s.shifted p (1 + args.length))) :=
  frameEnds_taken h _

/-- A select activity that is no frame changes nothing. -/
theorem portCommand_ignored {s : State} {f : Select} (h : s.resetPhase = .held ∨ f.early = true) (code : Byte)
    (args : List Byte) (body : State → Answer) : portCommand f code args body s = .next s :=
  frameEnds_ignored h _

theorem laneCommand_ignored {s : State} {f : Select} (h : s.resetPhase = .held ∨ f.early = true) (code : Byte)
    (needs : Bool) (args : List Byte) (body : Lane → State → Answer) :
    laneCommand f code needs args body s = .next s :=
  portCommand_ignored h ..

theorem bareCommand_ignored {s : State} {f : Select} (h : s.resetPhase = .held ∨ f.early = true) (code : Byte)
    (args : List Byte) (body : State → Answer) : bareCommand f code args body s = .next s :=
  portCommand_ignored h ..

/-- A lane command on an open lane runs its body. -/
theorem laneCommand_open {s : State} {p : Port} {n : Lane} (h : LaneOpen s p n) (code : Byte) (needs : Bool)
    (body : Lane → State → Answer) :
    laneCommand p.frame code needs [laneCode n] body s =
      settleAnswer p code (s.shifted p 2) (body n (s.shifted p 2)) := by
  have hh : heldByOther s p (laneResource n) = false := heldByOther_eq_false.mpr h.2
  simp [laneCommand, portCommand_taken h.1, hh]

/-- A lane command that needs no resource runs its body whoever holds the lane. -/
theorem laneCommand_read {s : State} {p : Port} (h : FramesTaken s p) (n : Lane) (code : Byte)
    (body : Lane → State → Answer) :
    laneCommand p.frame code false [laneCode n] body s =
      settleAnswer p code (s.shifted p 2) (body n (s.shifted p 2)) := by
  simp [laneCommand, portCommand_taken h]

theorem bareCommand_taken {s : State} {p : Port} (h : FramesTaken s p) (code : Byte) (body : State → Answer) :
    bareCommand p.frame code [] body s = settleAnswer p code (s.shifted p 1) (body (s.shifted p 1)) := by
  simp [bareCommand, portCommand_taken h]

/-- A refusal other than FRAME changes the response alone. -/
theorem settle_refuse {st : Status} (h : st ≠ .frame) (p : Port) (code : Byte) (s : State) (len : Nat) :
    settleAnswer p code (s.shifted p len) (.refuse st) =
      .next (replied p len { status := st, code := code, fields := [] } s) := by
  simp [settleAnswer, h, shifted_respond]

/-- A FRAME refusal also raises FRAME_FAULT. -/
theorem settle_frame (p : Port) (code : Byte) (s : State) (len : Nat) :
    settleAnswer p code (s.shifted p len) (.refuse .frame) = .next (frameRefused p len code s) := by
  simp only [settleAnswer, if_true, shifted_respond]
  cases p <;> rfl

theorem settle_done (p : Port) (code : Byte) (s : State) (st : Status) (fields : List Byte) (t : State) :
    settleAnswer p code s (.done st fields t) =
      .next (t.respond p { status := st, code := code, fields := fields }) := rfl

/-! ### What a command that answers a next state did -/

/-- All that a settled answer can be: a refusal that leaves all but port `p`'s response and views, or the command's own
state under a new response. -/
theorem settleAnswer_next {p : Port} {code : Byte} {s t : State} {a : Answer}
    (h : settleAnswer p code s a = .next t) :
    (∃ st, a = .refuse st ∧ st ≠ .frame ∧ t = s.respond p { status := st, code := code, fields := [] }) ∨
    (a = .refuse .frame ∧
      t = (s.respond p { status := .frame, code := code, fields := [] }).raiseFrameFault p) ∨
    (∃ st fields u, a = .done st fields u ∧ t = u.respond p { status := st, code := code, fields := fields }) := by
  cases a with
  | refuse st =>
    by_cases hf : st = .frame
    · subst hf
      refine .inr (.inl ⟨rfl, ?_⟩)
      simpa [settleAnswer] using h.symm
    · refine .inl ⟨st, rfl, hf, ?_⟩
      simpa [settleAnswer, hf] using h.symm
  | done st fields u =>
    refine .inr (.inr ⟨st, fields, u, rfl, ?_⟩)
    simpa [settleAnswer] using h.symm
  | stuck f => simp [settleAnswer] at h

/-- The flag of FRAME_FAULT is bit 24 (R182). -/
@[simp] theorem frameFaultFlag_getLsbD (k : Nat) : frameFaultFlag.getLsbD k = decide (k = 24) := by
  simp only [frameFaultFlag, BitVec.getLsbD_ofNat, Nat.testBit_two_pow]
  by_cases h : k = 24
  · subst h; rfl
  · simp [h, Ne.symm h]

/-- Whether two states differ at most in port `p`'s response, shifted bytes and FRAME_FAULT flag, as they do when a
frame is refused. -/
structure RefusedAlike (p : Port) (s t : State) : Prop where
  segs : t.segs = s.segs
  store : t.store = s.store
  lanes : t.lanes = s.lanes
  holders : t.holders = s.holders
  resetPhase : t.resetPhase = s.resetPhase
  freeCount : t.freeCount = s.freeCount
  pending : t.pending = s.pending
  other : t.port (otherPort p) = s.port (otherPort p)
  segCursor : (t.port p).segCursor = (s.port p).segCursor
  wordCursor : (t.port p).wordCursor = (s.port p).wordCursor
  results : (t.port p).results = (s.port p).results
  enable : (t.port p).view.enable = (s.port p).view.enable
  length : (t.port p).view.length = (s.port p).view.length
  holdoff : (t.port p).view.holdoff = (s.port p).view.holdoff
  flags : ∀ k, k ≠ 24 → (t.port p).view.pending.getLsbD k = (s.port p).view.pending.getLsbD k

/-- Nothing happened. -/
theorem RefusedAlike.same (p : Port) (s : State) : RefusedAlike p s s :=
  ⟨rfl, rfl, rfl, rfl, rfl, rfl, rfl, rfl, rfl, rfl, rfl, rfl, rfl, rfl, fun _ _ => rfl⟩

/-- All that a port command can do: nothing, or, over the state that the port's earlier commands leave, at most what a
refusal changes or what its body does over the shifted state, under a new response. -/
theorem portCommand_next {f : Select} {code : Byte} {args : List Byte} {body : State → Answer} {s t : State}
    (h : portCommand f code args body s = .next t) :
    t = s ∨
    (s.resetPhase = .released ∧ f.early = false ∧
      (RefusedAlike f.port (s.startOwed f.port) t ∨
        ∃ st fields u, body ((s.startOwed f.port).shifted f.port (1 + args.length)) = .done st fields u ∧
          t = u.respond f.port { status := st, code := code, fields := fields })) := by
  rcases frameEnds_next h with rfl | ⟨hr, he, h⟩
  · exact .inl rfl
  · refine .inr ⟨hr, he, ?_⟩
    rcases settleAnswer_next h with ⟨st, -, -, rfl⟩ | ⟨-, rfl⟩ | ⟨st, fields, u, hb, rfl⟩
    · left
      constructor <;> simp
    · left
      constructor <;> simp +contextual
    · exact .inr ⟨st, fields, u, hb, rfl⟩

/-- All that a lane command can do; when it is taken, its lane is open to the sender if it needs one. -/
theorem laneCommand_next {f : Select} {code : Byte} {needs : Bool} {args : List Byte} {body : Lane → State → Answer}
    {s t : State} (h : laneCommand f code needs args body s = .next t) :
    t = s ∨
    (s.resetPhase = .released ∧ f.early = false ∧
      (RefusedAlike f.port (s.startOwed f.port) t ∨
        ∃ n st fields u, args = [laneCode n] ∧
          (needs = true → s.holder (laneResource n) ≠ some (otherPort f.port)) ∧
          body n ((s.startOwed f.port).shifted f.port 2) = .done st fields u ∧
          t = u.respond f.port { status := st, code := code, fields := fields })) := by
  rcases portCommand_next h with h | ⟨hr, he, h | ⟨st, fields, u, hb, rfl⟩⟩
  · exact .inl h
  · exact .inr ⟨hr, he, .inl h⟩
  · refine .inr ⟨hr, he, .inr ?_⟩
    match args, hb with
    | [b], hb =>
      simp only at hb
      split at hb
      · cases hb
      · rename_i n hn
        split at hb
        · cases hb
        · rename_i hheld
          refine ⟨n, st, fields, u, ?_, ?_, hb, rfl⟩
          · rw [laneOfByte_eq_some hn]
          · intro hneeds
            simpa [hneeds, heldByOther] using hheld
    | [], hb => cases hb
    | _ :: _ :: _, hb => cases hb

/-- All that a command without arguments can do. -/
theorem bareCommand_next {f : Select} {code : Byte} {args : List Byte} {body : State → Answer} {s t : State}
    (h : bareCommand f code args body s = .next t) :
    t = s ∨
    (s.resetPhase = .released ∧ f.early = false ∧
      (RefusedAlike f.port (s.startOwed f.port) t ∨
        ∃ st fields u, body ((s.startOwed f.port).shifted f.port 1) = .done st fields u ∧
          t = u.respond f.port { status := st, code := code, fields := fields })) := by
  rcases portCommand_next h with h | ⟨hr, he, h | ⟨st, fields, u, hb, rfl⟩⟩
  · exact .inl h
  · exact .inr ⟨hr, he, .inl h⟩
  · by_cases ha : args = []
    · subst ha
      exact .inr ⟨hr, he, .inr ⟨st, fields, u, by simpa using hb, rfl⟩⟩
    · simp [ha] at hb

end Sys2Proof.Machine
end

