-- ==== Sys2Proof/Laws/Accumulate.lean ====
section
/-!
SUPPORT. What the accumulators' operations do: additions, the latches and the frames of `setRun` and `setInterval`.
-/

namespace Sys2Proof.Machine

/-! ### Bits -/

/-- A word has at most 64 ones. -/
theorem ones_le (w : Word) : ones w ≤ 64 := by
  simpa [ones] using List.countP_le_length (p := fun i => w.getLsbD i) (l := List.range 64)

/-- Errored bits are compared bits (R101). -/
theorem erroredBits_le (received reference mask : Word) : erroredBits received reference mask ≤ ones mask := by
  simp only [erroredBits, ones]
  exact List.countP_mono_left fun i _ h => by
    simp only [BitVec.getLsbD_and, Bool.and_eq_true] at h
    exact h.2

@[simp] theorem ones_zero : ones 0 = 0 := by decide

/-! ### Additions -/

theorem saturatingAdd_toNat {w : Nat} (v : BitVec w) (k : Nat) :
    (saturatingAdd v k).toNat = min (v.toNat + k) (2 ^ w - 1) := by
  have : 0 < 2 ^ w := Nat.two_pow_pos w
  simp only [saturatingAdd, BitVec.toNat_ofNat]
  exact Nat.mod_eq_of_lt (by omega)

@[simp] theorem saturatingAdd_zero {w : Nat} (v : BitVec w) : saturatingAdd v 0 = v := by
  apply BitVec.eq_of_toNat_eq
  have := v.isLt
  rw [saturatingAdd_toNat]
  omega

/-- An addition that stays within the width is plain. -/
theorem Counter.add_within {w : Nat} (mode : OverflowMode) (c : Counter w) (k : Nat)
    (h : c.value.toNat + k < 2 ^ w) :
    Counter.add mode c k = ({ c with value := c.value + BitVec.ofNat w k }, false) := by
  simp only [Counter.add, h, if_true]
  congr 2
  apply BitVec.eq_of_toNat_eq
  simp [Nat.add_mod]

/-- Adding nothing changes nothing. -/
@[simp] theorem Counter.add_zero {w : Nat} (mode : OverflowMode) (c : Counter w) :
    Counter.add mode c 0 = (c, false) := by
  rw [Counter.add_within _ _ _ (by simpa using c.value.isLt)]
  simp

/-! ### `setRun` and `setInterval` -/

@[simp] theorem setRun_segs (s : State) (n : Lane) (t : RunTotals × Bool) : (setRun s n t).segs = s.segs := by
  simp only [setRun]; split <;> simp
@[simp] theorem setRun_store (s : State) (n : Lane) (t : RunTotals × Bool) : (setRun s n t).store = s.store := by
  simp only [setRun]; split <;> simp
@[simp] theorem setRun_holders (s : State) (n : Lane) (t : RunTotals × Bool) : (setRun s n t).holders = s.holders := by
  simp only [setRun]; split <;> simp
@[simp] theorem setRun_resetPhase (s : State) (n : Lane) (t : RunTotals × Bool) : (setRun s n t).resetPhase = s.resetPhase := by
  simp only [setRun]; split <;> simp
@[simp] theorem setRun_freeCount (s : State) (n : Lane) (t : RunTotals × Bool) : (setRun s n t).freeCount = s.freeCount := by
  simp only [setRun]; split <;> simp
@[simp] theorem setRun_pending (s : State) (n : Lane) (t : RunTotals × Bool) : (setRun s n t).pending = s.pending := by
  simp only [setRun]; split <;> simp
@[simp] theorem setRun_seg (s : State) (n : Lane) (t : RunTotals × Bool) (i : Fin 64) :
    (setRun s n t).seg i = s.seg i := by
  simp only [setRun]; split <;> simp
@[simp] theorem setRun_record (s : State) (n : Lane) (t : RunTotals × Bool) (i : Fin 64) :
    (setRun s n t).record i = s.record i := by
  simp only [setRun]; split <;> simp
@[simp] theorem setRun_holder (s : State) (n : Lane) (t : RunTotals × Bool) (i : Fin 20) :
    (setRun s n t).holder i = s.holder i := by
  simp only [setRun]; split <;> simp
@[simp] theorem setRun_lane (s : State) (n m : Lane) (t : RunTotals × Bool) :
    (setRun s n t).lane m =
      if m = n then
        { s.lane n with acc := { (s.lane n).acc with run := t.1, runLatch := (s.lane n).acc.runLatch || t.2 } }
      else s.lane m := by
  simp only [setRun]; split <;> simp [LaneState.modAcc]
@[simp] theorem setRun_port (s : State) (n : Lane) (t : RunTotals × Bool) (p : Port) :
    (setRun s n t).port p =
      if t.2 && !(s.lane n).acc.runLatch then
        { s.port p with view := { (s.port p).view with
          pending := (s.port p).view.pending ||| (Event.accumLimit n).flag } }
      else s.port p := by
  simp only [setRun]; split <;> simp_all

@[simp] theorem setInterval_segs (s : State) (n : Lane) (t : IntervalAcc × Bool) : (setInterval s n t).segs = s.segs := by
  simp only [setInterval]; split <;> simp
@[simp] theorem setInterval_store (s : State) (n : Lane) (t : IntervalAcc × Bool) : (setInterval s n t).store = s.store := by
  simp only [setInterval]; split <;> simp
@[simp] theorem setInterval_holders (s : State) (n : Lane) (t : IntervalAcc × Bool) : (setInterval s n t).holders = s.holders := by
  simp only [setInterval]; split <;> simp
@[simp] theorem setInterval_resetPhase (s : State) (n : Lane) (t : IntervalAcc × Bool) : (setInterval s n t).resetPhase = s.resetPhase := by
  simp only [setInterval]; split <;> simp
@[simp] theorem setInterval_freeCount (s : State) (n : Lane) (t : IntervalAcc × Bool) : (setInterval s n t).freeCount = s.freeCount := by
  simp only [setInterval]; split <;> simp
@[simp] theorem setInterval_pending (s : State) (n : Lane) (t : IntervalAcc × Bool) : (setInterval s n t).pending = s.pending := by
  simp only [setInterval]; split <;> simp
@[simp] theorem setInterval_seg (s : State) (n : Lane) (t : IntervalAcc × Bool) (i : Fin 64) :
    (setInterval s n t).seg i = s.seg i := by
  simp only [setInterval]; split <;> simp
@[simp] theorem setInterval_record (s : State) (n : Lane) (t : IntervalAcc × Bool) (i : Fin 64) :
    (setInterval s n t).record i = s.record i := by
  simp only [setInterval]; split <;> simp
@[simp] theorem setInterval_holder (s : State) (n : Lane) (t : IntervalAcc × Bool) (i : Fin 20) :
    (setInterval s n t).holder i = s.holder i := by
  simp only [setInterval]; split <;> simp
@[simp] theorem setInterval_lane (s : State) (n m : Lane) (t : IntervalAcc × Bool) :
    (setInterval s n t).lane m =
      if m = n then
        { s.lane n with acc := { (s.lane n).acc with interval := t.1, intervalLatch := (s.lane n).acc.intervalLatch || t.2 } }
      else s.lane m := by
  simp only [setInterval]; split <;> simp [LaneState.modAcc]
@[simp] theorem setInterval_port (s : State) (n : Lane) (t : IntervalAcc × Bool) (p : Port) :
    (setInterval s n t).port p =
      if t.2 && !(s.lane n).acc.intervalLatch then
        { s.port p with view := { (s.port p).view with
          pending := (s.port p).view.pending ||| (Event.accumLimit n).flag } }
      else s.port p := by
  simp only [setInterval]; split <;> simp_all

/-! ### Counts of one word -/

/-- A word that carries no run total past its maximum is added plainly (R103). -/
theorem RunTotals.addWord_within (mode : OverflowMode) (t : RunTotals) (c e : Nat)
    (hc : t.compared.value.toNat + c < 2 ^ 56) (he : t.errored.value.toNat + e < 2 ^ 48)
    (hw : t.words.value.toNat + 1 < 2 ^ 40) :
    t.addWord mode c e =
      ({ t with
          compared := { t.compared with value := t.compared.value + BitVec.ofNat 56 c }
          errored := { t.errored with value := t.errored.value + BitVec.ofNat 48 e }
          words := { t.words with value := t.words.value + if 0 < e then 1 else 0 } }, false) := by
  have hw' : t.words.value.toNat + erroredWord e < 2 ^ 40 := by
    simp only [erroredWord]; split <;> omega
  rw [RunTotals.addWord, Counter.add_within _ _ _ hc, Counter.add_within _ _ _ he, Counter.add_within _ _ _ hw']
  simp only [erroredWord, Bool.or_self]
  split <;> rfl

/-- A word that carries no interval count past its maximum is added plainly (R105). -/
theorem IntervalAcc.addWord_within (mode : OverflowMode) (a : IntervalAcc) (c e : Nat)
    (hc : a.compared.value.toNat + c < 2 ^ 48) (he : a.errored.value.toNat + e < 2 ^ 40)
    (hw : a.words.value.toNat + 1 < 2 ^ 32) :
    a.addWord mode c e =
      ({ a with
          compared := { a.compared with value := a.compared.value + BitVec.ofNat 48 c }
          errored := { a.errored with value := a.errored.value + BitVec.ofNat 40 e }
          words := { a.words with value := a.words.value + if 0 < e then 1 else 0 }
          firstError := nextOffset a e false
          sliceCompared := saturatingAdd a.sliceCompared c
          sliceErrored := saturatingAdd a.sliceErrored e }, false) := by
  have hw' : a.words.value.toNat + erroredWord e < 2 ^ 32 := by
    simp only [erroredWord]; split <;> omega
  rw [IntervalAcc.addWord, Counter.add_within _ _ _ hc, Counter.add_within _ _ _ he, Counter.add_within _ _ _ hw']
  simp only [erroredWord, Bool.or_self, Bool.false_and]
  split <;> rfl

end Sys2Proof.Machine
end

