-- ==== Sys2Proof/Laws/Slots.lean ====
section
/-!
SUPPORT. What a slot, a received word, a tick or a close can reach, said once: `SlotStep`. Every operation that runs
inside one keeps plans, routes, configurations, lines, the shared tables and the ports' own settings.
-/

namespace Sys2Proof.Machine

/-- A lane whose plan, route, configurations and lines stand. -/
structure LaneKept (l k : LaneState) : Prop where
  plan : k.plan = l.plan
  route : k.route = l.route
  trigLine : k.trigLine = l.trigLine
  gateLine : k.gateLine = l.gateLine
  timerConfig : k.timer.config = l.timer.config
  checkConfig : k.checker.config = l.checker.config

theorem LaneKept.refl (l : LaneState) : LaneKept l l := ⟨Eq.refl _, Eq.refl _, Eq.refl _, Eq.refl _, Eq.refl _, Eq.refl _⟩

theorem LaneKept.trans {a b c : LaneState} (h : LaneKept a b) (g : LaneKept b c) : LaneKept a c :=
  ⟨g.plan.trans h.plan, g.route.trans h.route, g.trigLine.trans h.trigLine, g.gateLine.trans h.gateLine,
    g.timerConfig.trans h.timerConfig, g.checkConfig.trans h.checkConfig⟩

/-- A port of which a slot has moved at most pending flags of blocks' events and result cursors. -/
structure PortKept (v u : PortState) : Prop where
  response : u.response = v.response
  shiftedOut : u.shiftedOut = v.shiftedOut
  segCursor : u.segCursor = v.segCursor
  wordCursor : u.wordCursor = v.wordCursor
  enable : u.view.enable = v.view.enable
  length : u.view.length = v.view.length
  holdoff : u.view.holdoff = v.view.holdoff
  raised : ∀ k, v.view.pending.getLsbD k = true → u.view.pending.getLsbD k = true
  restarted : u.view.pending.getLsbD 25 = v.view.pending.getLsbD 25

theorem PortKept.refl (v : PortState) : PortKept v v :=
  ⟨Eq.refl _, Eq.refl _, Eq.refl _, Eq.refl _, Eq.refl _, Eq.refl _, Eq.refl _, fun _ h => h, Eq.refl _⟩

theorem PortKept.trans {a b c : PortState} (h : PortKept a b) (g : PortKept b c) : PortKept a c :=
  ⟨g.response.trans h.response, g.shiftedOut.trans h.shiftedOut, g.segCursor.trans h.segCursor,
    g.wordCursor.trans h.wordCursor, g.enable.trans h.enable, g.length.trans h.length, g.holdoff.trans h.holdoff,
    fun k hk => g.raised k (h.raised k hk), g.restarted.trans h.restarted⟩

/-- All that slots, words, ticks of interval timers and closes can do to a state. -/
structure SlotStep (s t : State) : Prop where
  segs : t.segs = s.segs
  store : t.store = s.store
  holders : t.holders = s.holders
  resetPhase : t.resetPhase = s.resetPhase
  freeCount : t.freeCount = s.freeCount
  pending : t.pending = s.pending
  lane : ∀ m, LaneKept (s.lane m) (t.lane m)
  port : ∀ p, PortKept (s.port p) (t.port p)

theorem SlotStep.refl (s : State) : SlotStep s s :=
  ⟨Eq.refl _, Eq.refl _, Eq.refl _, Eq.refl _, Eq.refl _, Eq.refl _, fun _ => .refl _, fun _ => .refl _⟩

theorem SlotStep.trans {a b c : State} (h : SlotStep a b) (g : SlotStep b c) : SlotStep a c :=
  ⟨g.segs.trans h.segs, g.store.trans h.store, g.holders.trans h.holders, g.resetPhase.trans h.resetPhase,
    g.freeCount.trans h.freeCount, g.pending.trans h.pending, fun m => (h.lane m).trans (g.lane m),
    fun p => (h.port p).trans (g.port p)⟩

theorem SlotStep.record {s t : State} (h : SlotStep s t) (i : Fin 64) : t.record i = s.record i := by
  simp only [State.record, State.seg, h.segs]

/-- The events of blocks do not stand for RESTARTED. -/
theorem Event.flag_restarted {e : Event} (h : e ≠ .restarted) : e.flag.getLsbD 25 = false := by
  cases e with
  | restarted => exact absurd rfl h
  | _ n => revert n; decide

/-- An event raised is pending on both ports. -/
theorem State.raise_isPending (s : State) (e : Event) (p : Port) (he : e.bit < 26) :
    ((s.raise e).port p).view.pending.getLsbD e.bit = true := by
  simp only [State.raise_port, Event.flag, BitVec.getLsbD_or, BitVec.getLsbD_ofNat, Nat.testBit_two_pow_self, he,
    decide_true, Bool.and_self, Bool.or_true]

theorem SlotStep.raise (s : State) {e : Event} (h : e ≠ .restarted) : SlotStep s (s.raise e) := by
  constructor <;> intros <;> simp
  · exact LaneKept.refl _
  · have hf := Event.flag_restarted h
    constructor <;> simp +contextual only [BitVec.getLsbD_or, Bool.true_or, hf, Bool.or_false, implies_true]

/-- A lane changed within what a slot may change. -/
theorem SlotStep.modLane (s : State) (n : Lane) {f : LaneState → LaneState} (h : LaneKept (s.lane n) (f (s.lane n))) :
    SlotStep s (s.modLane n f) := by
  constructor <;> intros <;> simp
  · split
    · subst_vars; exact h
    · exact LaneKept.refl _
  · exact PortKept.refl _

theorem SlotStep.setRun (s : State) (n : Lane) (t : RunTotals × Bool) : SlotStep s (setRun s n t) := by
  simp only [Machine.setRun]
  split
  · exact (SlotStep.modLane s n (f := _) ⟨Eq.refl _, Eq.refl _, Eq.refl _, Eq.refl _, Eq.refl _, Eq.refl _⟩).trans
      (SlotStep.raise _ (by simp))
  · exact SlotStep.modLane s n (f := _) ⟨Eq.refl _, Eq.refl _, Eq.refl _, Eq.refl _, Eq.refl _, Eq.refl _⟩

theorem SlotStep.setInterval (s : State) (n : Lane) (t : IntervalAcc × Bool) : SlotStep s (setInterval s n t) := by
  simp only [Machine.setInterval]
  split
  · exact (SlotStep.modLane s n (f := _) ⟨Eq.refl _, Eq.refl _, Eq.refl _, Eq.refl _, Eq.refl _, Eq.refl _⟩).trans
      (SlotStep.raise _ (by simp))
  · exact SlotStep.modLane s n (f := _) ⟨Eq.refl _, Eq.refl _, Eq.refl _, Eq.refl _, Eq.refl _, Eq.refl _⟩

/-! ### Interval timers -/

@[simp] theorem gateActive_modAcc (l : LaneState) (f : Accumulators → Accumulators) :
    gateActive (l.modAcc f) = gateActive l := rfl

theorem LaneKept.modAcc (l : LaneState) (f : Accumulators → Accumulators) : LaneKept l (l.modAcc f) := by
  constructor <;> rfl

theorem LaneKept.modProgress (l : LaneState) (f : IntervalProgress → IntervalProgress) :
    LaneKept l (l.modProgress f) := by
  constructor <;> rfl

theorem LaneKept.setTimer (l : LaneState) (st : TimerState) : LaneKept l (l.setTimer st) := by
  constructor <;> rfl

theorem LaneKept.refreshMark (l : LaneState) : LaneKept l (refreshMark l) := by
  constructor <;> rfl

theorem LaneKept.startInterval (l : LaneState) : LaneKept l (startInterval l) := by
  constructor <;> rfl

theorem LaneKept.classifySlice (l : LaneState) : LaneKept l (classifySlice l) := by
  constructor <;> rfl

theorem LaneKept.classifyOpenSlice (l : LaneState) : LaneKept l (classifyOpenSlice l) := by
  simp only [Machine.classifyOpenSlice]
  split
  · exact .refl _
  · exact .classifySlice _

theorem LaneKept.sliceCloseIfDue (l : LaneState) : LaneKept l (sliceCloseIfDue l) := by
  simp only [Machine.sliceCloseIfDue]
  split
  · constructor <;> rfl
  · exact .refl _

theorem LaneKept.finishClose (cause : CloseCause) (made : Bool) (l : LaneState) :
    LaneKept l (finishClose cause made l) := by
  constructor <;> rfl

/-! ### Chain offers -/

@[simp] theorem ChainOffer.none_standing : ChainOffer.none.standing = false := rfl
@[simp] theorem ChainOffer.none_owed (p : Port) : ChainOffer.none.owed p = false := by cases p <;> rfl
@[simp] theorem ChainOffer.join_standing (o : ChainOffer) (sender : Option Port) : (o.join sender).standing = true := rfl
@[simp] theorem ChainOffer.join_owed (o : ChainOffer) (sender : Option Port) (p : Port) :
    (o.join sender).owed p = (o.owed p || sender == some p) := by cases p <;> rfl

/-- All that an offer can do to a lane: nothing, or a joined offer at a timer that waits on the source. -/
theorem takeOffer_cases (n : Lane) (sender : Option Port) (l : LaneState) :
    takeOffer n sender l = l ∨
    (l.timer.state = .wait ∧ l.timer.config.trigger = .chain n ∧
      takeOffer n sender l = { l with timer := { l.timer with chainOffer := l.timer.chainOffer.join sender } }) := by
  simp only [takeOffer]
  split
  · simp_all
  · exact .inl rfl

/-- A close reaches each lane as an offer, when its cause starts followers. -/
theorem offerClose_lane (s : State) (n m : Lane) (cause : CloseCause) (sender : Option Port) :
    (offerClose s n cause sender).lane m =
      if cause.startsFollowers then takeOffer n sender (s.lane m) else s.lane m := by
  simp only [offerClose]
  split <;> simp [State.lane]

theorem LaneKept.takeOffer (n : Lane) (sender : Option Port) (l : LaneState) : LaneKept l (takeOffer n sender l) := by
  simp only [Machine.takeOffer]
  split
  · constructor <;> rfl
  · exact .refl _

theorem SlotStep.setLane (s : State) (n : Lane) {l : LaneState} (h : LaneKept (s.lane n) l) :
    SlotStep s (s.setLane n l) :=
  SlotStep.modLane s n (f := fun _ => l) h

theorem SlotStep.pushRecord (s : State) (n : Lane) (r : IntervalRecord) : SlotStep s (pushRecord s n r) := by
  have hl : ∀ ring, SlotStep s (s.modLane n fun l => { l with ring := ring }) := fun ring =>
    SlotStep.modLane s n (f := fun l => { l with ring := ring }) (by constructor <;> rfl)
  have hp : ∀ (u : State) f, SlotStep u (u.modPorts fun v => v.modResult n f) := by
    intro u f
    constructor <;> intros <;> simp
    · exact LaneKept.refl _
    · constructor <;> simp [PortState.modResult]
  simp only [Machine.pushRecord]
  split
  · split
    · exact (hl _).trans (hp _ _)
    · exact hl _
  · exact hl _

theorem SlotStep.offerClose (s : State) (n : Lane) (cause : CloseCause) (sender : Option Port) :
    SlotStep s (offerClose s n cause sender) := by
  simp only [Machine.offerClose]
  split
  · constructor <;> intros <;> try rfl
    · rename_i m
      have h : ({ s with lanes := s.lanes.map (takeOffer n sender) } : State).lane m = takeOffer n sender (s.lane m) := by
        simp [State.lane]
      rw [h]
      exact .takeOffer ..
    · rename_i p
      cases p <;> exact .refl _
  · exact .refl _

theorem SlotStep.closeInterval (s : State) (n : Lane) (cause : CloseCause) (sender : Option Port) :
    SlotStep s (closeInterval s n cause sender) := by
  simp only [Machine.closeInterval]
  refine SlotStep.trans ?_ (SlotStep.offerClose ..)
  split
  · simp only [Machine.closeWithRecord]
    refine SlotStep.trans ?_ (SlotStep.modLane _ n (.finishClose ..))
    have h : SlotStep s ((Machine.pushRecord (s.setLane n (Machine.classifyOpenSlice (s.lane n))) n
        (buildRecord n cause (Machine.classifyOpenSlice (s.lane n)))).raise (.intervalClosed n)) :=
      ((SlotStep.setLane s n (.classifyOpenSlice _)).trans (SlotStep.pushRecord ..)).trans
        (SlotStep.raise _ (by simp))
    split
    · exact h.trans (SlotStep.raise _ (by simp))
    · exact h
  · exact SlotStep.modLane s n (.finishClose ..)

theorem SlotStep.closeAndStop (s : State) (n : Lane) (cause : CloseCause) : SlotStep s (closeAndStop s n cause) :=
  (SlotStep.closeInterval s n cause _).trans (SlotStep.modLane _ n (.setTimer ..))

theorem SlotStep.closeAndRestart (s : State) (n : Lane) (cause : CloseCause) (sender : Option Port) :
    SlotStep s (closeAndRestart s n cause sender) :=
  (SlotStep.closeInterval s n cause _).trans (SlotStep.modLane _ n (.startInterval _))

theorem SlotStep.intervalExpiryIfDue (s : State) (n : Lane) : SlotStep s (intervalExpiryIfDue s n) := by
  simp only [Machine.intervalExpiryIfDue]
  split
  · split
    · exact .closeAndStop ..
    · exact .closeAndRestart ..
  · exact .refl _

theorem SlotStep.countUnit (s : State) (n : Lane) : SlotStep s (countUnit s n) :=
  (SlotStep.modLane s n ((LaneKept.modProgress ..).trans (.sliceCloseIfDue _))).trans (.intervalExpiryIfDue _ n)

theorem SlotStep.tickTimer (s : State) (n : Lane) : SlotStep s (tickTimer s n) := by
  simp only [Machine.tickTimer]
  split
  · exact .countUnit s n
  · exact .refl _

/-- What earlier commands of a port owe is at most fresh intervals. -/
theorem SlotStep.startOwed (s : State) (p : Port) : SlotStep s (s.startOwed p) := by
  constructor <;> intros <;> simp
  · rcases startOwedAt_cases p (s.lane _) with h | ⟨-, -, -, h⟩ <;> rw [h]
    · exact .refl _
    · exact .startInterval _
  · exact .refl _

/-! ### Received words -/

/-- A lane whose checker changes but for its configuration. -/
theorem LaneKept.modChecker (l : LaneState) {f : Checker → Checker} (h : (f l.checker).config = l.checker.config) :
    LaneKept l (l.modChecker f) := by
  constructor <;> first | exact h | rfl

/-- The expectation of a word keeps the configuration. -/
theorem expected_config {s : State} {n : Lane} {x : Expected} (h : expected s n = .ok x) :
    x.advanced.config = (s.lane n).checker.config ∧ x.advanced.state = (s.lane n).checker.state ∧
      x.advanced.progress = (s.lane n).checker.progress ∧ x.advanced.slip = (s.lane n).checker.slip ∧
      x.advanced.mode = (s.lane n).checker.mode := by
  simp only [expected] at h
  split at h
  · split at h
    · cases h
    · cases h
      simp
  · split at h
    · split at h
      · cases h
      · cases h
        simp
    · cases h
      simp

theorem SlotStep.searchWord {s t : State} {n : Lane} {w : Word} (h : searchWord s n w = .ok t) : SlotStep s t := by
  simp only [Machine.searchWord] at h
  split at h
  · split at h
    · cases h
    · cases h
      split
      · exact SlotStep.modLane s n (.modChecker _ rfl)
      · exact .refl _
  · split at h
    · cases h
    · split at h
      · cases h
        exact .refl _
      · cases h
        exact SlotStep.modLane s n (.modChecker _ rfl)

theorem SlotStep.gainLock (s : State) (n : Lane) {c : Checker} (h : c.config = (s.lane n).checker.config) :
    SlotStep s (gainLock s n c) := by
  simp only [Machine.gainLock]
  refine SlotStep.trans ?_ (SlotStep.raise _ (by simp))
  refine SlotStep.trans ?_ (SlotStep.modLane _ n ?_)
  · exact (SlotStep.modLane s n (.modChecker _ h)).trans (SlotStep.setRun ..)
  · split
    · exact .modAcc ..
    · exact .refl _

theorem SlotStep.verifyWord {s : State} {n : Lane} {x : Expected} (w : Word) (h : expected s n = .ok x) :
    SlotStep s (verifyWord s n x w) := by
  have hc := (expected_config h).1
  simp only [Machine.verifyWord]
  split
  · exact SlotStep.modLane s n (.modChecker _ hc)
  · split
    · split
      · exact SlotStep.modLane s n (.modChecker _ hc)
      · exact .gainLock s n hc
    · exact SlotStep.modLane s n (.modChecker _ rfl)

theorem SlotStep.loseLock (s : State) (n : Lane) : SlotStep s (loseLock s n) := by
  simp only [Machine.loseLock]
  refine SlotStep.trans ?_ (SlotStep.raise _ (by simp))
  refine SlotStep.trans ?_ (SlotStep.modLane _ n ?_)
  · exact (SlotStep.modLane s n (.modChecker _ rfl)).trans (SlotStep.setRun ..)
  · split
    · exact (LaneKept.modAcc ..).trans (.modProgress ..)
    · exact .refl _

theorem SlotStep.accumulate (s : State) (n : Lane) (c e : Nat) :
    SlotStep s (accumulatedUnit (accumulateInterval (accumulateRun s n c e) n c e) n) := by
  have h1 : SlotStep s (accumulateRun s n c e) := SlotStep.setRun ..
  have h2 : ∀ u, SlotStep u (accumulateInterval u n c e) := by
    intro u
    simp only [accumulateInterval]
    split
    · exact SlotStep.setInterval ..
    · exact .refl _
  have h3 : ∀ u, SlotStep u (accumulatedUnit u n) := by
    intro u
    simp only [accumulatedUnit]
    split
    · exact .countUnit u n
    · exact .refl _
  exact (h1.trans (h2 _)).trans (h3 _)

theorem SlotStep.lockedWord {s : State} {n : Lane} {x : Expected} (w : Word) (h : expected s n = .ok x) :
    SlotStep s (lockedWord s n x w) := by
  have hc := (expected_config h).1
  simp only [Machine.lockedWord]
  split
  · exact SlotStep.modLane s n (.modChecker _ hc)
  · rename_i ref mask _
    simp only [moveSlip]
    have ha := SlotStep.accumulate s n (ones mask) (erroredBits w ref mask)
    split
    · exact ha.trans (.loseLock _ n)
    · exact ha.trans (SlotStep.modLane _ n (.modChecker _ (hc.trans (ha.lane n).checkConfig.symm)))

/-- All that a word at one checker can do. -/
theorem SlotStep.receiveAt {s t : State} {n : Lane} {w : Word} (h : receiveAt s n w = .ok t) : SlotStep s t := by
  simp only [Machine.receiveAt] at h
  split at h
  · cases h
    exact .refl _
  · exact .searchWord h
  · split at h
    · cases h
    · cases h
      rename_i hx
      exact .verifyWord w hx
  · split at h
    · cases h
    · cases h
      rename_i hx
      exact .lockedWord w hx

theorem SlotStep.deliverTo {src : Source} {w : Word} {s t : State} {n : Lane} (h : deliverTo src w s n = .ok t) :
    SlotStep s t := by
  simp only [Machine.deliverTo] at h
  split at h
  · exact .receiveAt h
  · cases h
    exact .refl _

/-- A word delivered is delivered to each checker in turn. -/
theorem deliver_ok {src : Source} {w : Word} {s t : State} (h : deliver src w s = .ok t) :
    ∃ s0 s1 s2, deliverTo src w s 0 = .ok s0 ∧ deliverTo src w s0 1 = .ok s1 ∧ deliverTo src w s1 2 = .ok s2 ∧
      deliverTo src w s2 3 = .ok t := by
  simp only [Machine.deliver] at h
  split at h
  · cases h
  · split at h
    · cases h
    · split at h
      · cases h
      · exact ⟨_, _, _, by assumption, by assumption, by assumption, h⟩

/-- All that a delivered word can do. -/
theorem SlotStep.deliver {src : Source} {w : Word} {s t : State} (h : deliver src w s = .ok t) : SlotStep s t := by
  obtain ⟨s0, s1, s2, h0, h1, h2, h3⟩ := deliver_ok h
  exact (((deliverTo h0).trans (deliverTo h1)).trans (deliverTo h2)).trans (deliverTo h3)

/-- A word of a source that no checker takes goes nowhere. -/
theorem deliver_nobody {src : Source} {w : Word} {s : State} (h : ∀ m : Lane, (s.lane m).route.source ≠ src) :
    Machine.deliver src w s = .ok s := by
  simp [Machine.deliver, Machine.deliverTo, h]

/-- A word of a source that one checker takes is handled there alone. -/
theorem deliver_only {src : Source} {w : Word} {s : State} {n : Lane} (h : FeedsOnly s src n) :
    Machine.deliver src w s = Machine.receiveAt s n w := by
  have hs : (s.lane n).route.source = src := (h n).mpr rfl
  have hne : ∀ m, m ≠ n → (s.lane m).route.source ≠ src := fun m hm hc => hm ((h m).mp hc)
  cases hr : Machine.receiveAt s n w with
  | error f =>
    fin_cases n <;> simp [Machine.deliver, Machine.deliverTo, hne] <;> simp_all
  | ok t =>
    have ht : ∀ m, m ≠ n → (t.lane m).route.source ≠ src := by
      intro m hm
      rw [((SlotStep.receiveAt hr).lane m).route]
      exact hne m hm
    fin_cases n <;> simp_all [Machine.deliver, Machine.deliverTo]

/-! ### Transmit slots -/

theorem LaneKept.modGen (l : LaneState) (f : Generator → Generator) : LaneKept l (l.modGen f) := by
  constructor <;> rfl

theorem SlotStep.beginRun (s : State) (n : Lane) : SlotStep s (beginRun s n) :=
  SlotStep.modLane s n (by constructor <;> rfl)

theorem SlotStep.takeTrigger (s : State) (n : Lane) : SlotStep s (takeTrigger s n).2 := by
  simp only [Machine.takeTrigger]
  split
  · exact .beginRun s n
  · split
    · exact .refl _
    · exact SlotStep.modLane s n (f := fun l => l.modGen _) (.modGen ..)

theorem SlotStep.wordLimitIfReached (s : State) (n : Lane) : SlotStep s (wordLimitIfReached s n) := by
  simp only [Machine.wordLimitIfReached]
  split
  · exact (SlotStep.modLane s n (.modGen ..)).trans (SlotStep.raise _ (by simp))
  · exact .refl _

theorem LaneKept.pauseEndIfDue (l : LaneState) : LaneKept l (pauseEndIfDue l) := by
  simp only [Machine.pauseEndIfDue]
  split
  · exact .modGen ..
  · exact .refl _

theorem SlotStep.endPass (s : State) (n : Lane) : SlotStep s (endPass s n) := by
  have hl : SlotStep s (s.modLane n latchPass) := SlotStep.modLane s n (by constructor <;> rfl)
  simp only [Machine.endPass]
  split
  · exact hl.trans (SlotStep.modLane _ n (.modGen ..))
  · refine hl.trans ?_
    simp only [endRunByPasses]
    split
    · exact (SlotStep.modLane _ n (.modGen ..)).trans (.beginRun ..)
    · exact (SlotStep.modLane _ n (.modGen ..)).trans (SlotStep.raise _ (by simp))

theorem LaneKept.creditLane (g : Lane) (k : Nat) (l : LaneState) : LaneKept l (creditLane g k l) := by
  simp only [Machine.creditLane]
  split
  · exact .modAcc ..
  · exact .refl _

@[simp] theorem credit_lane (s : State) (g m : Lane) (k : Nat) : (credit s g k).lane m = creditLane g k (s.lane m) := by
  simp [credit, State.lane]

theorem SlotStep.credit (s : State) (g : Lane) (k : Nat) : SlotStep s (credit s g k) := by
  constructor <;> intros <;> try rfl
  · rw [credit_lane]
    exact .creditLane ..
  · rename_i p
    cases p <;> exact .refl _

theorem SlotStep.inject (s : State) (n : Lane) (w : Word) (counted : Bool) : SlotStep s (inject s n w counted).2 := by
  simp only [Machine.inject]
  split
  · exact (SlotStep.modLane s n (by constructor <;> rfl)).trans (.credit ..)
  · exact .refl _

theorem SlotStep.afterPatternWord (s : State) (n : Lane) (step : Option Advance) :
    SlotStep s (afterPatternWord s n step) := by
  simp only [Machine.afterPatternWord]
  split
  · exact .wordLimitIfReached s n
  · split
    · exact .refl _
    · exact SlotStep.modLane s n (.modGen ..)
    · exact .endPass s n

theorem SlotStep.fillSlot {s : State} {n : Lane} {r : Word × State} (h : fillSlot s n = .ok r) : SlotStep s r.2 := by
  simp only [Machine.fillSlot] at h
  split at h
  · cases h
    exact .refl _
  · cases h
    exact .refl _
  · cases h
    simp only [pausingSlot, countSlot]
    exact (((SlotStep.modLane s n (.modGen ..)).trans (SlotStep.modLane _ n (.modGen ..))).trans
      (.wordLimitIfReached _ n)).trans (SlotStep.modLane _ n (.pauseEndIfDue _))
  · split at h
    · cases h
    · cases h
      simp only [runningSlot, countSlot]
      exact (((SlotStep.inject s n _ _).trans (SlotStep.modLane _ n (by constructor <;> rfl))).trans
        (SlotStep.modLane _ n (.modGen ..))).trans (.afterPatternWord ..)

/-- All that a transmit slot can do. -/
theorem SlotStep.transmit {s t : State} {n : Lane} (h : transmit s n = .ok t) : SlotStep s t := by
  simp only [Machine.transmit] at h
  split at h
  · cases h
  · rename_i w u hf
    exact ((SlotStep.fillSlot hf).trans (SlotStep.modLane u n (by constructor <;> rfl))).trans (.deliver h)

/-- The outcome of a walk that has a next state. -/
theorem walkOutcome_next {r : Except Fault State} {t : State} (h : walkOutcome r = .next t) : r = .ok t := by
  cases r with
  | ok s => cases h; rfl
  | error f => cases h

end Sys2Proof.Machine
end

