-- ==== Sys2Proof/Laws/Store.lean ====
section
/-!
SUPPORT. The Pattern Word Store: read after write, and the canonical form that every store operation keeps.
-/

namespace Sys2Proof.Machine

/-- The store right after reset lists nothing and has the canonical form (R11). -/
theorem reset_store_wf : Memory.wf State.reset.store := by
  simp [Memory.wf, State.reset]

/-- An address below every listed address reads as an unlisted one. -/
theorem storeRead_below {m : Memory} {a : Nat} (h : ∀ c ∈ m, a < c.1) : storeRead m a = unlistedWord := by
  induction m with
  | nil => rfl
  | cons c m ih =>
    have hc := h c (by simp)
    simp only [storeRead, if_neg (Nat.ne_of_lt hc)]
    exact ih fun d hd => h d (by simp [hd])

/-- Every cell of a store after a write is an old cell or the written one, and the written one is listed only when it
differs from an unlisted word. -/
theorem mem_storeWrite {m : Memory} {a : Nat} {w : Word} {c : StoreCell} (h : c ∈ storeWrite m a w) :
    c ∈ m ∨ (c = (a, w) ∧ w ≠ unlistedWord) := by
  induction m with
  | nil =>
    simp only [storeWrite] at h
    split at h
    · simp at h
    · exact Or.inr ⟨by simpa using h, ‹_›⟩
  | cons d m ih =>
    simp only [storeWrite] at h
    split at h
    · split at h
      · exact Or.inl h
      · rcases List.mem_cons.mp h with rfl | h
        · exact Or.inr ⟨rfl, ‹_›⟩
        · exact Or.inl h
    · split at h
      · split at h
        · exact Or.inl (List.mem_cons_of_mem _ h)
        · rcases List.mem_cons.mp h with rfl | h
          · exact Or.inr ⟨rfl, ‹_›⟩
          · exact Or.inl (List.mem_cons_of_mem _ h)
      · rcases List.mem_cons.mp h with rfl | h
        · exact Or.inl (by simp)
        · exact (ih h).imp (List.mem_cons_of_mem _) id

/-- A write to an address of the store keeps the canonical form. -/
theorem storeWrite_wf {m : Memory} {a : Nat} {w : Word} (h : Memory.wf m) (ha : a < Config.storeSize) :
    Memory.wf (storeWrite m a w) := by
  refine ⟨?_, fun c hc => ?_⟩
  · obtain ⟨h, -⟩ := h
    induction m with
    | nil => simp only [storeWrite]; split <;> simp
    | cons d m ih =>
      obtain ⟨hd, hm⟩ := List.pairwise_cons.mp h
      simp only [storeWrite]
      split
      · split
        · exact h
        · refine List.pairwise_cons.mpr ⟨fun c hc => ?_, h⟩
          rcases List.mem_cons.mp hc with rfl | hc
          · assumption
          · exact Nat.lt_trans ‹_› (hd c hc)
      · split
        · split
          · exact hm
          · subst a
            exact List.pairwise_cons.mpr ⟨hd, hm⟩
        · refine List.pairwise_cons.mpr ⟨fun c hc => ?_, ih hm⟩
          rcases mem_storeWrite hc with hc | ⟨rfl, -⟩
          · exact hd c hc
          · simp only; omega
  · rcases mem_storeWrite hc with hc | ⟨rfl, hw⟩
    · exact h.2 c hc
    · exact ⟨ha, hw⟩

/-- Read after write: the written word at its address, and every other address as it was. -/
theorem storeRead_storeWrite {m : Memory} (h : Memory.wf m) (a b : Nat) (w : Word) :
    storeRead (storeWrite m a w) b = if b = a then w else storeRead m b := by
  obtain ⟨h, -⟩ := h
  induction m with
  | nil =>
    simp only [storeWrite]
    split <;> simp_all [storeRead]
  | cons d m ih =>
    obtain ⟨hd, hm⟩ := List.pairwise_cons.mp h
    have below : ∀ x, x ≤ d.1 → storeRead m x = unlistedWord := fun x hx =>
      storeRead_below fun c hc => Nat.lt_of_le_of_lt hx (hd c hc)
    simp only [storeWrite]
    split
    · have hdb : ∀ x, x = a → x ≠ d.1 := by omega
      split
      · by_cases hb : b = a
        · simp [storeRead, hdb a rfl, below a (by omega), *]
        · simp [hb]
      · simp only [storeRead]
    · split
      · subst a
        by_cases hb : b = d.1
        · subst b
          split
          · simp [below d.1 (Nat.le_refl _), *]
          · simp [storeRead]
        · split <;> simp [storeRead, hb]
      · have ih := ih hm
        by_cases hb : b = d.1
        · have : ¬ b = a := by omega
          simp [storeRead, hb]
          omega
        · simp [storeRead, hb, ih]

/-- Writing several words that end within the store keeps the canonical form (R20). -/
theorem storeWriteMany_wf {m : Memory} {a : Nat} {ws : List Word} (h : Memory.wf m)
    (ha : a + ws.length ≤ Config.storeSize) : Memory.wf (storeWriteMany m a ws) := by
  induction ws generalizing m a with
  | nil => exact h
  | cons w ws ih =>
    simp only [List.length_cons] at ha
    exact ih (storeWrite_wf h (by omega)) (by omega)

/-- Reading after several words have been written from `a` on: the k-th of them at a + k, and every other address as it
was (R20). -/
theorem storeRead_storeWriteMany {m : Memory} {a : Nat} {ws : List Word} (h : Memory.wf m)
    (ha : a + ws.length ≤ Config.storeSize) (b : Nat) :
    storeRead (storeWriteMany m a ws) b =
      if a ≤ b ∧ b < a + ws.length then ws.getD (b - a) 0 else storeRead m b := by
  induction ws generalizing m a with
  | nil => simp [storeWriteMany]
  | cons w ws ih =>
    simp only [List.length_cons] at ha
    rw [storeWriteMany, ih (storeWrite_wf h (by omega)) (by omega), storeRead_storeWrite h]
    by_cases hb : b = a
    · subst hb; simp
    · by_cases hc : a + 1 ≤ b ∧ b < a + 1 + ws.length
      · obtain ⟨k, rfl⟩ : ∃ k, b = a + 1 + k := ⟨b - (a + 1), by omega⟩
        simp only [List.length_cons]
        rw [if_pos hc, if_pos (by omega)]
        simp [show a + 1 + k - a = k + 1 by omega, show a + 1 + k - (a + 1) = k by omega]
      · simp only [List.length_cons]
        rw [if_neg hc, if_neg hb, if_neg (by omega)]

end Sys2Proof.Machine
end

