-- ==== Sys2Proof/Tests/Slice0.lean ====
section
/-!
SUPPORT. Tests of single operations and single steps against the values that the spec works out, and for every
obligation with hypotheses a witness that meets them.
-/

namespace Sys2Proof.Tests
open Sys2Proof Sys2Proof.Machine

set_option Elab.async false

/-! ### Helpers -/

/-- The state that an outcome goes on to, or the state right after reset. -/
def after : Host.Outcome State Fault Refusal → State
  | .next t => t
  | _ => State.reset

/-- Whether an outcome is a next state. -/
def goesOn : Host.Outcome State Fault Refusal → Bool
  | .next _ => true
  | _ => false

theorem exists_next {o : Host.Outcome State Fault Refusal} (h : goesOn o = true) : ∃ t, o = .next t := by
  cases o with
  | next t => exact ⟨t, rfl⟩
  | fault _ => cases h
  | refused _ => cases h

/-- PRBS of order 7 from seed 0x7F: the worked values of chapter 1. -/
def prbsSeg : Segment where
  kind := .prbs .k7 false 127
  words := 2
  reps := 0
  next := none
  counted := true
  mask := BitVec.allOnes 64
  tail := 8

/-- The worked LIST segment of chapter 1. -/
def listSeg : Segment := { prbsSeg with kind := .list 100 3 1000, words := 4, reps := 2 }

/-- The worked COUNT segment of chapter 1. -/
def countSeg : Segment := { prbsSeg with kind := .count 0xFFFFFFFFFFFFFFFE 1, reps := 1 }

/-- An uncounted FILL segment of one word. -/
def fillSeg : Segment := { prbsSeg with kind := .fill 0x55, words := 1, counted := false }

/-- A position. -/
def pos (seg : Fin 64) (r : BitVec 8) (i : BitVec 16) (p : BitVec 32) (pause : BitVec 16) : Pos :=
  { seg := seg, r := r, i := i, p := p, pause := pause }

/-- The part with segment 0 defined and marked for GEN 0 and CHK 0, and lane 0, whose plan is VALID, changed by `f`. -/
def part (sg : Segment) (f : LaneState → LaneState) : State :=
  (State.reset.setSeg 0 { record := some sg, useSet := 0x11 }).modLane 0 fun l =>
    f { l with plan := { l.plan with valid := true, verdict := .valid, reach := 1 } }

/-- Lane 0's generator in a state, at a position. -/
def genAt (st : GenState) (q : Pos) (l : LaneState) : LaneState :=
  { l with gen := { l.gen with state := st, pos := q } }

/-- Lane 0's checker in a state, at a reference position. -/
def chkAt (st : CheckState) (q : Pos) (l : LaneState) : LaneState :=
  { l with checker := { l.checker with state := st, pos := q } }

/-- Lane 0's timer in a state, with a progress. -/
def timerAt (st : TimerState) (q : IntervalProgress) (l : LaneState) : LaneState :=
  { l with timer := { l.timer with state := st, progress := q } }

/-- Lane 0 with a changed plan. -/
def planned (f : Plan → Plan) (l : LaneState) : LaneState := { l with plan := f l.plan }

/-- A FREE-RUN plan. -/
def freeRun (l : LaneState) : LaneState := planned (fun p => { p with mode := .freeRun }) l

/-! ### Well-formedness -/

/-- A frame whose code names a command is not UNKNOWN_CODE_FRAME: the term is refused by the check and by the step. -/
theorem test_wf_refuses_known_code :
    Instr.WellFormed (.unknownCodeFrame Port.a.frame 0x01 []) = false ∧
    step { State.reset with pending := [.unknownCodeFrame Port.a.frame 0x01 []] } = .refused .codeNamesACommand :=
  ⟨by decide, rfl⟩

/-- R163: a frame of one byte whose code names no command is taken, and refused with UNKNOWN. -/
theorem test_wf_takes_unknown_code :
    Instr.WellFormed (.unknownCodeFrame Port.a.frame 0x07 []) = true ∧
    ((after (exec (.unknownCodeFrame Port.a.frame 0x07 []) State.reset)).port .a).response.status = .unknown := by
  decide

/-! ### Frames (Table 11-2) -/

theorem test_decode_reserve : decodeFrame Port.a.frame [0x04, 0x13] = .reserve Port.a.frame [0x13] := by decide
theorem test_decode_word_write : decodeFrame Port.b.frame [0x15, 0x00] = .wordWrite Port.b.frame [0x00] := by decide
theorem test_decode_check_status : decodeFrame Port.b.frame [0x3C, 0x02] = .checkStatus Port.b.frame [0x02] := by decide
theorem test_decode_result_clear : decodeFrame Port.a.frame [0x52, 0x03] = .resultClear Port.a.frame [0x03] := by decide
theorem test_decode_unassigned : decodeFrame Port.a.frame [0x7F, 1] = .unknownCodeFrame Port.a.frame 0x7F [1] := by
  decide
theorem test_decode_empty : decodeFrame Port.b.frame [] = .emptyFrame Port.b.frame := by decide
/-- The table gives its rows no bits. -/
theorem test_decode_table_word : decodeTableWord 8 2 = none := by decide

/-! ### Words (chapter 1, "Worked values") -/

theorem test_prbs7_first_bytes :
    (formWord [] prbsSeg 0 (pos 0 0 0 1 0)) >>> 40 = 0x020C28 := by decide +kernel
theorem test_prbs7_inverted_first_bytes :
    (formWord [] { prbsSeg with kind := .prbs .k7 true 127 } 0 (pos 0 0 0 1 0)) >>> 40 = 0xFDF3D7 := by decide +kernel
theorem test_list_address_wraps : listAddress 100 3 1000 (passOffset 2048 2) 2 0 = 52 := by decide
theorem test_list_address_third_pass : listAddress 100 3 1000 (passOffset 2048 3) 2 3 = 2109 := by decide
theorem test_count_wraps : formWord [] countSeg 0 (pos 0 1 0 1 0) = 0 := by decide
theorem test_count_second_word : formWord [] countSeg 0 (pos 0 0 1 1 0) = 0xFFFFFFFFFFFFFFFF := by decide
/-- R10's example: tail 3, words 4. -/
theorem test_tail_mask : ones (effectiveMask { prbsSeg with words := 4, tail := 3 } 3) = 24 := by decide
/-- R3: a seed whose kept bits are all zero is stored as 2^k − 1. -/
theorem test_zero_seed_is_stored_as_ones :
    (segmentOfBytes (segmentBytes { prbsSeg with kind := .prbs .k23 false 0 })).map Segment.kind =
      some (.prbs .k23 false 0x7FFFFF) := by decide

/-! ### Signature and injection (chapter 4) -/

/-- The worked fold of chapter 4. -/
theorem test_worked_fold : foldWord 0 0x9000000000000000 = 0x24924926 := by decide +kernel
/-- R64's examples. -/
theorem test_burst_whole_word : burstMask 63 64 = BitVec.allOnes 64 := by decide
theorem test_burst_bits : burstMask 40 8 = 0x1FE00000000 := by decide
theorem test_burst_cut_off : ones (burstMask 5 10) = 6 := by decide

/-! ### Rates (chapter 8, "Worked cases") -/

theorem test_rate_half : rateFigure 1 2 = { m := 32768, x := 0, clamped := false } := by decide
theorem test_rate_third : rateFigure 1 3 = { m := 43690, x := 1, clamped := false } := by decide
theorem test_rate_unity : rateFigure 1000 24 = { m := 65535, x := 0, clamped := true } := by decide
theorem test_rate_smallest : rateFigure 1 72057594037927935 = { m := 32768, x := 55, clamped := false } := by decide
/-- The worked interval of chapter 7: X 18 exceeds the alarm threshold (34,360, 23). -/
theorem test_rate_worked_interval :
    (rateFigure 840 244800000).x = 18 ∧ exceeds { tm := 34360, tx := 23 } 840 244800000 = true := by decide

/-! ### Single steps -/

/-- R166: port A becomes the holder of resource 19. -/
theorem test_reserve_last_resource :
    (after (exec (.reserve Port.a.frame [19]) State.reset)).holder 19 = some .a := by decide
/-- R20: a word written at the last address leaves the cursor at 4096. -/
theorem test_word_write_at_end :
    storeRead (after (exec (.wordWrite Port.b.frame [1, 0, 0, 0, 0, 0, 0, 0, 7])
      (State.reset.modPort .b fun v => { v with wordCursor := 4095 }))).store 4095 = 7 := by decide
/-- R41: a trigger taken in ARMED begins pass 1. -/
theorem test_trigger_begins_run :
    ((after (exec (.laneTrigger Port.a.frame [0]) (part prbsSeg (genAt .armed (pos 0 0 0 0 0))))).lane 0).gen.pos =
      pos 0 0 0 1 0 := by decide +kernel
/-- R46: the second word of a one-repetition segment without a next ends the pass and, with pass count 1, the run. -/
theorem test_run_ends_in_armed :
    ((after (exec (.transmitSlot 0) (part prbsSeg (genAt .running (pos 0 0 1 1 0))))).lane 0).gen.state = .armed := by
  decide +kernel
/-- Slot 4 of chapter 5's worked acquisition: the anchor word positions the checker past it. -/
theorem test_anchor_enters_verify :
    ((after (exec (.receiveWord 0 (formWord [] prbsSeg 0 (pos 0 0 0 1 0)))
      (part prbsSeg (chkAt .search Reset.pos)))).lane 0).checker.pos = pos 0 0 1 1 0 := by decide +kernel
/-- Slot 20 of the same: the errored word that would bring the score past T loses lock. -/
theorem test_lock_is_lost :
    ((after (exec (.receiveWord 0 0) (part prbsSeg fun l =>
      chkAt .locked (pos 0 0 1 3 0)
        { l with checker := { l.checker with
          slip := 3, config := { l.checker.config with threshold := 3 } } }))).lane 0).checker.state = .search := by
  decide +kernel
/-- R127, R130: the tick that completes L closes the interval. -/
theorem test_tick_expires :
    ((after (exec .tick (part prbsSeg
      (timerAt .run { Reset.progress with elapsed := 999, sliceUnits := 999 })))).lane 0).ring.nextSeq = 1 := by
  decide +kernel
/-- R134: an equal entry goes behind those it equals. -/
theorem test_worst_list_ties :
    offerWorst { index := 5, bits := 3 } [{ index := 1, bits := 9 }, { index := 2, bits := 3 }] =
      [{ index := 1, bits := 9 }, { index := 2, bits := 3 }, { index := 5, bits := 3 }] := by decide
/-- R160, log 5: an empty queue idles. -/
theorem test_empty_queue_idles : step State.reset = .next State.reset := rfl

/-! ### Witnesses: states and operands that meet the hypotheses of each obligation -/

/-- Port B holds resource r. -/
def heldByB (r : Fin 20) (s : State) : State := s.setHolder r (some .b)

/-- Port A's cursors moved. -/
def cursors (seg : Fin 65) (word : Fin 4097) (s : State) : State :=
  s.modPort .a fun v => { v with segCursor := seg, wordCursor := word }

theorem witness_StepRunsFrontCommand :
    ({ State.reset with pending := [.tick, .tick] } : State).pending = .tick :: [.tick] ∧
    State.reset.pending = [] := by decide

theorem witness_FrameBytesAndCommandsAgree :
    Instr.WellFormed (.segWrite Port.b.frame [1, 2]) = true ∧
    frameBytes (.segWrite Port.b.frame [1, 2]) = some (Port.b.frame, [0x11, 1, 2]) := by decide

theorem witness_FramesAreTakenAndAnswered :
    FramesTaken State.reset .a ∧ codeNamesCommand 0x07 = false ∧ codeNamesCommand 0xFF = false ∧ 0 < 1 ∧
    Instr.WellFormed (.nop Port.a.frame []) = true ∧
    frameBytes (.nop Port.a.frame []) = some (Port.a.frame, [0x01]) ∧
    (deviceResetState State.reset .held).resetPhase = .held ∧
    frameBytes (.nop { port := .b, early := true } []) = some ({ port := .b, early := true }, [0x01]) := by
  unfold FramesTaken; decide

theorem witness_WrongLengthAnswersFrame :
    frameBytes (.reserve Port.a.frame []) = some (Port.a.frame, 0x04 :: []) ∧ FramesTaken State.reset .a ∧
    frameLengthFits (.reserve Port.a.frame []) = false ∧
    frameBytes (.wordWrite Port.b.frame [1]) = some (Port.b.frame, 0x15 :: [1]) ∧
    frameLengthFits (.wordWrite Port.b.frame [1]) = false := by
  unfold FramesTaken; decide

theorem witness_ArgumentOutOfRangeAnswersRange :
    (namesLane (.laneHalt Port.a.frame [4]) = true ∧ frameBytes (.laneHalt Port.a.frame [4]) = some (Port.a.frame,
      0x2A :: 4 :: []) ∧
      frameLengthFits (.laneHalt Port.a.frame [4]) = true ∧ FramesTaken State.reset .a ∧ 4 ≤ (4 : Byte).toNat) ∧
    (namesLane (.routeSet Port.a.frame [3, 2, 0, 0]) = true ∧
      frameBytes (.routeSet Port.a.frame [3, 2, 0, 0]) = some (Port.a.frame, 0x38 :: 3 :: [2, 0, 0]) ∧
      frameLengthFits (.routeSet Port.a.frame [3, 2, 0, 0]) = true ∧ argumentsInRange (.routeSet Port.a.frame [3, 2,
      0, 0]) = false) := by
  unfold FramesTaken; decide

/-- A timer configuration's bytes: unit WORDS, L 0, S 0, REPEAT, CHAIN(0), alarm (1, 255), severe disabled. -/
def timerBytes : List Byte := [1, 0, 0, 0, 0, 0, 1, 6, 0, 0, 1, 255, 0, 0, 0]

theorem witness_SettingArgumentsKeepTheirRanges :
    (planOfBytes (Reset.plan 0) (planBytes (Reset.plan 3))).isSome = true ∧
    (2 ^ 24 - 1 < 2 ^ 24 ∧ 0 < 2 ^ 24) ∧ (injectionOfBytes 1 63 0 0).isSome = true ∧
    (injectionOfBytes 2 0 64 0).isSome = true ∧ (injectionOfBytes 3 63 0 (2 ^ 24 - 1)).isSome = true ∧
    (routeOfBytes 0 0 255).isSome = true ∧ (routeOfBytes 1 3 3).isSome = true ∧
    (checkConfigOfBytes 3 0 255 1).isSome = true ∧
    ∀ k : Fin 7, (timerConfigOfBytes 3 (timerBytes.set 7 (BitVec.ofNat 8 k.val))).isSome = true ∧
      byteAt (timerBytes.set 7 (BitVec.ofNat 8 k.val)) 7 = BitVec.ofNat 8 k.val := by decide

theorem witness_HeldLaneAnswersReserved :
    needsLane (.laneHalt Port.a.frame [3]) = true ∧ frameBytes (.laneHalt Port.a.frame [3]) = some (Port.a.frame,
    0x2A :: laneCode 3 :: []) ∧
    frameLengthFits (.laneHalt Port.a.frame [3]) = true ∧ argumentsInRange (.laneHalt Port.a.frame [3]) = true ∧
    FramesTaken (heldByB 3 State.reset) .a ∧ (heldByB 3 State.reset).holder (laneResource 3) = some (otherPort .a) := by
  unfold FramesTaken; decide

theorem witness_BusyAndWrongStateRefusals :
    (LaneOpen (part fillSeg (genAt .armed Reset.pos)) .a 0 ∧ (planBytes (Reset.plan 0)).length = 22 ∧
      argumentsInRange (.planSet Port.a.frame (laneCode 0 :: planBytes (Reset.plan 0))) = true ∧
      ((part fillSeg (genAt .armed Reset.pos)).lane 0).gen.state ≠ .stopped) ∧
    (∃ c : Lane, ((part fillSeg (chkAt .search Reset.pos)).lane c).checker.config.planLane = 0 ∧
      ((part fillSeg (chkAt .search Reset.pos)).lane c).checker.state ≠ .off) ∧
    (LaneOpen (part fillSeg (chkAt .search Reset.pos)) .a 0 ∧ (routeOfBytes 1 3 255).isSome = true ∧
      (checkConfigOfBytes 3 15 63 1).isSome = true) ∧
    (LaneOpen (part fillSeg (timerAt .wait Reset.progress)) .a 0 ∧
      ([0, 0, 0, 0, 0, 0, 0, 0, 0, 0, 0, 0, 0, 0, 0] : List Byte).length = 15 ∧
      (timerConfigOfBytes 0 [0, 0, 0, 0, 0, 0, 0, 0, 0, 0, 0, 0, 0, 0, 0]).isSome = true ∧
      ((part fillSeg (timerAt .wait Reset.progress)).lane 0).timer.state ≠ .stop) ∧
    (LaneOpen State.reset .b 3 ∧ (State.reset.lane 3).gen.state = .stopped ∧
      (State.reset.lane 3).plan.valid = false ∧ (checkerPlan State.reset 3).valid = false ∧
      (State.reset.lane 3).timer.state = .stop) ∧
    ((part fillSeg (chkAt .locked Reset.pos)).lane 0).checker.state ≠ .off := by
  unfold LaneOpen FramesTaken; decide +kernel

theorem witness_IdentityAndEventViewAreRead : FramesTaken State.reset .a := by unfold FramesTaken; decide

theorem witness_PortResetClearsOwnPort : FramesTaken (heldByB 0 State.reset) .a := by unfold FramesTaken; decide

theorem witness_ReservationsAreTakenAndFreed :
    FramesTaken (heldByB 19 State.reset) .a ∧ (heldByB 19 State.reset).holder 0 ≠ some (otherPort .a) ∧
    (heldByB 19 State.reset).holder 19 = some (otherPort .a) ∧ (heldByB 19 State.reset).holder 19 = some .b ∧
    (heldByB 19 State.reset).holder 19 ≠ some .a ∧ 19 < (20 : Byte).toNat := by unfold FramesTaken; decide

theorem witness_EventCommandsSetTheView :
    FramesTaken State.reset .a ∧ (State.reset.port .a).view.length ≠ 0 ∧
    ((State.reset.modPort .a fun v => { v with view := { v.view with length := 0 } }).port .a).view.length = 0 ∧
    ([4, 0, 0, 0] : List Byte).length = 4 ∧ 2 ^ 26 ≤ ofBe [4, 0, 0, 0] := by unfold FramesTaken; decide

theorem witness_SelectsSetTheCursors :
    FramesTaken State.reset .a ∧ 63 < (64 : Byte).toNat ∧ ([0x10, 0] : List Byte).length = 2 ∧
    4095 < ofBe [0x10, 0] := by unfold FramesTaken; decide

/-- Segment 63 in use, port A's cursor on it. -/
def segInUse : State := cursors 63 0 (State.reset.setSeg 63 { record := some fillSeg, useSet := 0x80 })

theorem witness_SegWriteDefinesAndInvalidates :
    (FramesTaken (cursors 63 0 State.reset) .a ∧ (segmentBytes listSeg).length = 31 ∧
      ((cursors 63 0 State.reset).port .a).segCursor = (63 : Fin 64).castSucc ∧
      segmentOfBytes (segmentBytes listSeg) = some listSeg ∧
      (cursors 63 0 State.reset).holder (segResource 63) ≠ some (otherPort .a) ∧
      ((cursors 63 0 State.reset).seg 63).useSet = 0) ∧
    (FramesTaken segInUse .a ∧ (segInUse.port .a).segCursor = (63 : Fin 64).castSucc ∧
      segInUse.holder (segResource 63) ≠ some (otherPort .a) ∧ (segInUse.seg 63).useSet ≠ 0) ∧
    (heldByB 11 (cursors 63 0 State.reset)).holder (segResource 63) = some (otherPort .a) ∧
    ((cursors 64 0 State.reset).port .a).segCursor.val = 64 ∧ segmentOfBytes (List.replicate 31 4) = none := by
  unfold FramesTaken; decide +kernel

theorem segmentInRange_listSeg : SegmentInRange listSeg :=
  ⟨by decide, by decide, by decide, by decide, fun _ _ _ h => by cases h⟩

theorem witness_SegmentRecordsRoundTrip :
    SegmentInRange listSeg ∧
    (∀ sg ∈ [prbsSeg, listSeg, countSeg, fillSeg, { prbsSeg with next := some 63 }],
      segmentOfBytes (segmentBytes sg) = some sg) ∧
    byteAt (segmentBytes prbsSeg) 4 = 255 ∧ byteAt (segmentBytes { prbsSeg with next := some 63 }) 4 = 63 ∧
    byteAt (segmentBytes prbsSeg) 0 = 0 ∧ byteAt (segmentBytes listSeg) 0 = 1 ∧
    byteAt (segmentBytes countSeg) 0 = 2 ∧ byteAt (segmentBytes fillSeg) 0 = 3 :=
  ⟨segmentInRange_listSeg, by decide +kernel⟩

theorem witness_SegReadAndSegClear :
    (FramesTaken (cursors 63 0 State.reset) .a ∧
      ((cursors 63 0 State.reset).port .a).segCursor = (63 : Fin 64).castSucc ∧
      ((cursors 64 0 State.reset).port .a).segCursor.val = 64) ∧
    (State.reset.holder (segResource 63) ≠ some (otherPort .a) ∧ (State.reset.seg 63).useSet = 0) ∧
    (FramesTaken segInUse .a ∧ segInUse.holder (segResource 63) ≠ some (otherPort .a) ∧ (segInUse.seg 63).useSet ≠ 0) ∧
    (heldByB 4 State.reset).holder (segResource 0) = some (otherPort .a) ∧ 63 < (64 : Byte).toNat := by
  unfold FramesTaken; decide

theorem witness_WordWriteStoresItsWords :
    (FramesTaken (cursors 0 4095 State.reset) .a ∧ StoreCanonical (cursors 0 4095 State.reset) ∧
      (List.replicate 255 (7 : Word)).length ≤ 255 ∧
      ∀ a : Fin 4096, ((cursors 0 4095 State.reset).port .a).wordCursor.val ≤ a.val →
        (cursors 0 4095 State.reset).holder (wordResource a) ≠ some (otherPort .a)) ∧
    frameLengthFits (.wordWrite Port.a.frame []) = false ∧ frameLengthFits (.wordWrite Port.a.frame [1, 2]) = false ∧
    ∃ a : Fin 4096, ((cursors 0 4095 State.reset).port .a).wordCursor.val ≤ a.val ∧
      a.val < ((cursors 0 4095 State.reset).port .a).wordCursor.val + 1 ∧
      (heldByB 19 (cursors 0 4095 State.reset)).holder (wordResource a) = some (otherPort .a) := by
  refine ⟨⟨by unfold FramesTaken; decide +kernel, reset_store_wf, by decide +kernel, fun a _ => ?_⟩, by decide,
    by decide, 4095, by decide +kernel, by decide +kernel,
    by decide +kernel⟩
  exact (by decide : ∀ r : Fin 20, (cursors 0 4095 State.reset).holder r ≠ some (otherPort .a)) _

theorem witness_WordReadReturnsStoredWords : FramesTaken (cursors 0 4096 State.reset) .a := by
  unfold FramesTaken; decide +kernel

theorem witness_PlanSetAndCheckValidate :
    LaneOpen State.reset .a 3 ∧ (State.reset.lane 3).gen.state = .stopped ∧
    ∀ c : Lane, (State.reset.lane c).checker.config.planLane = 3 → (State.reset.lane c).checker.state = .off := by
  unfold LaneOpen FramesTaken; decide

/-- A table with segment 0 alone defined. -/
def tableOf (sg : Segment) (i : Fin 64) : Option Segment := if i = 0 then some sg else none

/-- In a table whose segment 0 names no next, nothing but segment 0 is reached from it. -/
theorem reached_eq_zero {sg : Segment} (h : sg.next = none) {u : Fin 64}
    (hu : Relation.ReflTransGen (Links (tableOf sg)) 0 u) : u = 0 := by
  induction hu with
  | refl => rfl
  | tail _ hl ih =>
    obtain ⟨sg', h1, h2⟩ := hl
    subst ih
    simp only [tableOf, if_pos, Option.some.injEq] at h1
    subst h1
    rw [h] at h2
    cases h2

theorem witness_ValidationFollowsItsTests :
    ((Reset.plan 0).mode = .sequence ∧ Relation.ReflTransGen (Links fun _ => none) (Reset.plan 0).first 0) ∧
    (∀ u : Fin 64, Relation.ReflTransGen (Links (tableOf prbsSeg)) (Reset.plan 0).first u →
      (tableOf prbsSeg u).isSome = true) ∧
    (¬ Relation.ReflTransGen (Links (tableOf prbsSeg)) (Reset.plan 0).first 63) ∧
    (Relation.ReflTransGen (Links (tableOf fillSeg)) (Reset.plan 0).first (Reset.plan 0).anchor ∧
      tableOf fillSeg (Reset.plan 0).anchor = some fillSeg ∧ fillSeg.kind.anchors = false) ∧
    (tableOf prbsSeg (Reset.plan 0).anchor = some prbsSeg ∧ prbsSeg.kind.anchors = true ∧
      (if prbsSeg.words.toNat = 1 then prbsSeg.mask &&& tailMask prbsSeg.tail else prbsSeg.mask) ≠ 0) ∧
    ({ listSeg with mask := 0 } : Segment).mask = 0 ∧
    fillSeg.kind.isPrbs = false ∧ prbsSeg.kind.isPrbs = true := by
  refine ⟨⟨rfl, .refl⟩, fun u hu => ?_, fun h => ?_, ⟨.refl, rfl, rfl⟩, ⟨rfl, rfl, by decide +kernel⟩, rfl, rfl, rfl⟩
  · cases reached_eq_zero rfl hu
    rfl
  · have := reached_eq_zero rfl h
    revert this
    decide

theorem witness_SegmentsFormTheirWords :
    (fillSeg.kind = .fill 0x55 ∧ countSeg.kind = .count 0xFFFFFFFFFFFFFFFE 1 ∧ listSeg.kind = .list 100 3 1000 ∧
      prbsSeg.kind = .prbs .k7 false 127 ∧ 63 < 64) ∧
    (part prbsSeg id).record (Reset.plan 0).first = some prbsSeg := ⟨⟨rfl, rfl, rfl, rfl, by decide⟩, rfl⟩

theorem witness_LaneStartArmsTheGenerator :
    LaneOpen (part prbsSeg id) .a 0 ∧ ((part prbsSeg id).lane 0).gen.state = .stopped ∧
    ((part prbsSeg id).lane 0).plan.valid = true := by unfold LaneOpen FramesTaken; decide

/-- Lane 0 in a run with a pending trigger. -/
def pendingRun (l : LaneState) : LaneState :=
  { l with gen := { l.gen with state := .running, pendingTrigger := true, pos := pos 0 0 1 1 0 } }

/-- Lane 0 with a plan trigger. -/
def triggered (t : PlanTrigger) (l : LaneState) : LaneState := planned (fun p => { p with trigger := t }) l

theorem witness_TriggersBeginRunsOrPend :
    (LaneOpen (part prbsSeg (genAt .armed Reset.pos)) .b 0 ∧
      ((part prbsSeg (genAt .armed Reset.pos)).lane 0).gen.state = .armed) ∧
    (((part prbsSeg (genAt .pausing (pos 0 0 0 2 1))).lane 0).gen.state = .pausing ∧
      ((part prbsSeg (genAt .pausing (pos 0 0 0 2 1))).lane 0).gen.pendingTrigger = false) ∧
    (((part prbsSeg pendingRun).lane 0).gen.state = .running ∧
      ((part prbsSeg pendingRun).lane 0).gen.pendingTrigger = true) ∧
    (State.reset.lane 3).trigLine = .low ∧ (State.reset.lane 3).trigLine ≠ .high ∧
    (State.reset.lane 3).gen.state = .stopped ∧ (State.reset.lane 3).plan.trigger.matchesEdge .high = false ∧
    PlanTrigger.matchesEdge .trigRise .high = true ∧
    ((part prbsSeg fun l => triggered .trigRise (genAt .armed Reset.pos l)).lane 0).gen.state = .armed ∧
    ((part prbsSeg fun l => triggered .trigBoth (pendingRun l)).lane 0).plan.trigger.matchesEdge .high = true := by
  unfold LaneOpen FramesTaken; decide

theorem witness_LaneHaltStopsTheGenerator :
    LaneOpen (part prbsSeg pendingRun) .a 0 ∧ ((part prbsSeg pendingRun).lane 0).gen.state ≠ .stopped ∧
    ((part prbsSeg id).lane 0).gen.state = .stopped := by unfold LaneOpen FramesTaken; decide

/-- A RUNNING slot of a SEQUENCE plan has its pattern word. -/
theorem sequenceWord {sg : Segment} {f : LaneState → LaneState} (hm : ((part sg f).lane 0).plan.mode = .sequence)
    (hs : ((part sg f).lane 0).gen.pos.seg = 0) : ∃ w prbs, PatternWordIs (part sg f) 0 w sg.counted prbs :=
  ⟨_, _, .inl ⟨hm, sg, by rw [hs]; rfl, rfl, rfl, rfl⟩⟩

/-- A RUNNING slot of a FREE-RUN plan has its pattern word, and it is counted. -/
theorem freeRunWord {f : LaneState → LaneState} (hm : ((part prbsSeg f).lane 0).plan.mode = .freeRun)
    (hf : ((part prbsSeg f).lane 0).plan.first = 0) : ∃ w prbs, PatternWordIs (part prbsSeg f) 0 w true prbs :=
  ⟨_, _, .inr ⟨hm, prbsSeg, .k7, false, 127, by rw [hf]; rfl, rfl, rfl, rfl, rfl⟩⟩

/-- Every slot has its flips. -/
theorem flipsExist (s : State) (n : Lane) (counted : Bool) : ∃ flips used, FlipsAre s n counted flips used := by
  cases counted
  · exact ⟨_, _, .inr ⟨rfl, rfl, rfl⟩⟩
  · exact ⟨_, _, .inl ⟨rfl, rfl⟩⟩

theorem witness_RunningSlotEmitsAndWalksOn :
    (NoLoop (part prbsSeg (genAt .running (pos 0 0 0 1 0))) 0 ∧
      ((part prbsSeg (genAt .running (pos 0 0 0 1 0))).lane 0).gen.state = .running ∧
      ShortOfLimit (part prbsSeg (genAt .running (pos 0 0 0 1 0))) 0 ∧
      ((part prbsSeg (genAt .running (pos 0 0 0 1 0))).lane 0).plan.mode = .sequence ∧
      (part prbsSeg (genAt .running (pos 0 0 0 1 0))).record 0 = some prbsSeg ∧
      Onward prbsSeg (pos 0 0 0 1 0) (pos 0 0 1 1 0)) ∧
    (∃ w prbs, PatternWordIs (part prbsSeg (genAt .running (pos 0 0 0 1 0))) 0 w true prbs) ∧
    (∃ w prbs, PatternWordIs (part fillSeg (genAt .running (pos 0 0 0 1 0))) 0 w false prbs) ∧
    ((part prbsSeg (fun l => freeRun (genAt .running (pos 0 0 0 1 0) l))).lane 0).plan.mode = .freeRun ∧
    (∃ w prbs, PatternWordIs (part prbsSeg fun l => freeRun (genAt .running (pos 0 0 0 1 0) l)) 0 w true prbs) ∧
    ∀ counted, ∃ flips used,
      FlipsAre (part prbsSeg (genAt .running (pos 0 0 0 1 0))) 0 counted flips used :=
  ⟨by unfold NoLoop ShortOfLimit Onward; decide, sequenceWord (sg := prbsSeg) (by decide) (by decide),
    sequenceWord (sg := fillSeg) (by decide) (by decide), by decide, freeRunWord (by decide) (by decide),
    flipsExist _ _⟩

theorem witness_LastWordEndsThePass :
    ((NoLoop (part prbsSeg pendingRun) 0 ∧ ((part prbsSeg pendingRun).lane 0).gen.state = .running ∧
        ShortOfLimit (part prbsSeg pendingRun) 0 ∧ ((part prbsSeg pendingRun).lane 0).plan.mode = .sequence ∧
        (part prbsSeg pendingRun).record ((part prbsSeg pendingRun).lane 0).gen.pos.seg = some prbsSeg ∧
        AtPassEnd prbsSeg ((part prbsSeg pendingRun).lane 0).gen.pos) ∧
      ((part prbsSeg fun l => planned (fun p => { p with passCount := 0 }) (pendingRun l)).lane 0).plan.passCount =
        0 ∧
      (((part prbsSeg pendingRun).lane 0).plan.passCount ≠ 0 ∧
        ((part prbsSeg pendingRun).lane 0).plan.passCount.toNat ≤
          (((part prbsSeg pendingRun).lane 0).gen.passesDone + 1).toNat ∧
        ((part prbsSeg pendingRun).lane 0).gen.pendingTrigger = true) ∧
      ((part prbsSeg (genAt .running (pos 0 0 1 1 0))).lane 0).gen.pendingTrigger = false) ∧
    (∃ w prbs, PatternWordIs (part prbsSeg pendingRun) 0 w true prbs) ∧
    ∃ flips used, FlipsAre (part prbsSeg pendingRun) 0 true flips used :=
  ⟨by unfold NoLoop ShortOfLimit AtPassEnd; decide, sequenceWord (sg := prbsSeg) (by decide) (by decide),
    flipsExist ..⟩

/-- Lane 0 with a word limit of 1. -/
def limited (l : LaneState) : LaneState := planned (fun p => { p with wordLimit := 1 }) l

theorem witness_IdleAndPauseSlotsAndTheWordLimit :
    ((NoLoop (part fillSeg (genAt .pausing (pos 0 0 0 2 1))) 0 ∧
        ((part fillSeg (genAt .pausing (pos 0 0 0 2 1))).lane 0).gen.state = .pausing ∧
        ((part fillSeg (genAt .pausing (pos 0 0 0 2 1))).lane 0).gen.pos.pause ≠ 0 ∧
        ShortOfLimit (part fillSeg (genAt .pausing (pos 0 0 0 2 1))) 0) ∧
      (NoLoop (part fillSeg fun l => limited (genAt .pausing (pos 0 0 0 2 1) l)) 0 ∧
        ((part fillSeg fun l => limited (genAt .pausing (pos 0 0 0 2 1) l)).lane 0).plan.wordLimit ≠ 0 ∧
        ((part fillSeg fun l => limited (genAt .pausing (pos 0 0 0 2 1) l)).lane 0).gen.wordsEmitted.toNat + 1 =
          ((part fillSeg fun l => limited (genAt .pausing (pos 0 0 0 2 1) l)).lane 0).plan.wordLimit.toNat) ∧
      ((part prbsSeg fun l => limited (freeRun (genAt .running (pos 0 0 0 1 0) l))).lane 0).gen.state = .running ∧
      ((part prbsSeg fun l => limited (freeRun (genAt .running (pos 0 0 0 1 0) l))).lane 0).plan.wordLimit = 1 ∧
      ((part fillSeg (genAt .armed Reset.pos)).lane 0).gen.state = .armed ∧ NoLoop State.reset 3) ∧
    (∃ w prbs, PatternWordIs (part fillSeg fun l => limited (genAt .running (pos 0 0 0 1 0) l)) 0 w false prbs) ∧
    (∃ w prbs, PatternWordIs (part prbsSeg fun l => limited (freeRun (genAt .running (pos 0 0 0 1 0) l))) 0 w true
      prbs) ∧
    ∃ flips used, FlipsAre (part fillSeg fun l => limited (genAt .running (pos 0 0 0 1 0) l)) 0 false flips used :=
  ⟨by unfold NoLoop ShortOfLimit; decide, sequenceWord (sg := fillSeg) (by decide) (by decide),
    freeRunWord (by decide) (by decide), flipsExist ..⟩

/-- Lane 0 in a run, with a burst waiting. -/
def burstRun (l : LaneState) : LaneState :=
  genAt .running (pos 0 0 0 1 0) { l with inject := { l.inject with setting := .burst 5 10 } }

theorem witness_CountedSlotIsInjected :
    (NoLoop (part prbsSeg burstRun) 0 ∧ ((part prbsSeg burstRun).lane 0).gen.state = .running) ∧
    (∃ w prbs, PatternWordIs (part prbsSeg burstRun) 0 w true prbs) ∧
    (∃ w prbs, PatternWordIs (part prbsSeg fun l => freeRun (burstRun l)) 0 w true prbs) ∧
    (∃ w prbs, PatternWordIs (part fillSeg burstRun) 0 w false prbs) ∧
    FlipsAre (part prbsSeg burstRun) 0 true (burstMask 5 10)
      { ((part prbsSeg burstRun).lane 0).inject with setting := .off } :=
  ⟨by unfold NoLoop; decide, sequenceWord (sg := prbsSeg) (by decide) (by decide), freeRunWord (by decide) (by decide),
    sequenceWord (sg := fillSeg) (by decide) (by decide), .inl ⟨rfl, by decide⟩⟩

/-- An injection unit with a setting. -/
def unit (x : Injection) : InjectUnit := { setting := x, periodCount := 1, bits := 0, words := 0 }

theorem witness_InjectedAndFoldedBits :
    (unit .off).setting = .off ∧ (unit (.single 63)).setting = .single 63 ∧
    ((unit (.burst 0 1)).setting = .burst 0 1 ∧ 1 ≤ (1 : BitVec 7).toNat) ∧
    ((unit (.periodic 63 2)).setting = .periodic 63 2 ∧
      (unit (.periodic 63 2)).periodCount.toNat + 1 = (2 : BitVec 24).toNat ∧
      (unit (.periodic 63 3)).periodCount.toNat + 1 ≠ (3 : BitVec 24).toNat) ∧ 30 < 31 := by decide

theorem witness_ClearsAndSettingsTakeEffect :
    LaneOpen State.reset .a 3 ∧ (injectionOfBytes 2 63 64 (ofBe [0, 0, 0])).isSome = true ∧
    (injectionOfBytes 3 0 0 (ofBe [0, 0, 1])).isSome = true ∧ (routeOfBytes 1 3 255).isSome = true ∧
    (State.reset.lane 3).checker.state = .off ∧ (checkConfigOfBytes 3 0 255 1).isSome = true ∧
    timerBytes.length = 15 ∧ (timerConfigOfBytes 3 timerBytes).isSome = true ∧
    (State.reset.lane 3).timer.state = .stop := by unfold LaneOpen FramesTaken; decide

theorem witness_CheckStartEntersSearch :
    LaneOpen (part prbsSeg id) .a 0 ∧ ((part prbsSeg id).lane 0).checker.state = .off ∧
    (checkerPlan (part prbsSeg id) 0).valid = true := by unfold LaneOpen FramesTaken; decide

theorem witness_CheckStopEntersOff : LaneOpen (part prbsSeg (timerAt .run Reset.progress)) .a 0 := by
  unfold LaneOpen FramesTaken; decide

/-- Checkers 0 and 1 in SEARCH under plan 0, both on receive bus 0; the other routes as after reset. -/
def twoCheckers : State :=
  (part prbsSeg (chkAt .search Reset.pos)).modLane 1 fun l =>
    chkAt .search Reset.pos
      { l with
        route := { l.route with source := .external 0 }
        checker := { l.checker with config := { l.checker.config with planLane := 0 } } }

theorem witness_WordsOutsideALockAreTested :
    (FeedsOnly (part prbsSeg (chkAt .search Reset.pos)) (.external 0) 0 ∧
      ((part prbsSeg (chkAt .search Reset.pos)).lane 0).checker.state = .search ∧
      ((part prbsSeg (chkAt .search Reset.pos)).lane 0).checker.mode = .sequence ∧
      (part prbsSeg (chkAt .search Reset.pos)).record 0 = some prbsSeg ∧
      ReferenceNext (checkerPlan (part prbsSeg (chkAt .search Reset.pos)) 0) prbsSeg (pos 0 0 0 1 0) (pos 0 0 1 1 0) ∧
      (0 : Word) &&& prbsSeg.mask ≠ formWord [] prbsSeg 0 (pos 0 0 0 1 0) &&& prbsSeg.mask) ∧
    (((part prbsSeg fun l => { chkAt .search Reset.pos l with
        checker := { (chkAt .search Reset.pos l).checker with mode := .freeRun } }).lane 0).checker.mode = .freeRun ∧
      (∃ j : Fin 64, j.val < PrbsOrder.k7.k ∧ (prbsRawWord .k7 127).getLsbD (63 - j.val) = true) ∧
      ∀ j : Fin 64, PrbsOrder.k7.k ≤ j.val → (prbsRawWord .k7 127).getLsbD (63 - j.val) =
        ((prbsRawWord .k7 127).getLsbD (63 - (j.val - PrbsOrder.k7.k)) ^^
          (prbsRawWord .k7 127).getLsbD (63 - (j.val - PrbsOrder.k7.a)))) ∧
    (∀ m : Lane, (State.reset.lane m).route.source = .external 3 → (State.reset.lane m).checker.state = .off) ∧
    ((∃ t, arrives (.external 0) 0 twoCheckers = .next t) ∧ (twoCheckers.lane 0).route.source = .external 0 ∧
      (twoCheckers.lane 1).route.source = .external 0 ∧ (twoCheckers.lane 3).route.source ≠ .external 0) ∧
    (State.reset.lane 0).checker.state = .off :=
  ⟨by unfold FeedsOnly ReferenceNext Onward AtPassEnd; decide +kernel, by decide +kernel, by decide,
    ⟨exists_next (by decide +kernel), by decide, by decide, by decide⟩, by decide⟩

/-- R76, R115: the anchor word on a bus that feeds two checkers in SEARCH positions both. -/
theorem test_both_checkers_take_the_word :
    ([0, 1] : List Lane).map (fun n =>
      ((after (exec (.receiveWord 0 (formWord [] prbsSeg 0 (pos 0 0 0 1 0))) twoCheckers)).lane n).checker.state) =
      [.verify, .verify] := by decide +kernel

/-- Lane 0's checker verifying, with a progress. -/
def verifying (progress : BitVec 4) (q : Pos) (l : LaneState) : LaneState :=
  { l with checker := { l.checker with state := .verify, progress := progress, pos := q } }

/-- Lane 0's checker under a FREE-RUN plan. -/
def freeRunChecker (l : LaneState) : LaneState := freeRun { l with checker := { l.checker with mode := .freeRun } }

/-- A checker inside a pass of a SEQUENCE plan has its counted reference. -/
theorem countedWord {sg : Segment} {f : LaneState → LaneState} {q : Pos} (hc : sg.counted = true)
    (hm : ((part sg f).lane 0).checker.mode = .sequence) (hp : ((part sg f).lane 0).checker.pos.pause = 0)
    (hs : ((part sg f).lane 0).checker.pos.seg = 0)
    (hq : ReferenceNext (checkerPlan (part sg f) 0) sg ((part sg f).lane 0).checker.pos q) :
    ∃ ref mask next, CountedReference (part sg f) 0 ref mask next :=
  ⟨_, _, _, .inl ⟨hm, hp, sg, q, by rw [hs]; rfl, hc, hq, rfl, rfl, rfl⟩⟩

/-- A checker under a FREE-RUN plan has its counted reference. -/
theorem freeRunReference {f : LaneState → LaneState} (hm : ((part prbsSeg f).lane 0).checker.mode = .freeRun)
    (hf : (checkerPlan (part prbsSeg f) 0).first = 0) :
    ∃ ref next, CountedReference (part prbsSeg f) 0 ref prbsSeg.mask next :=
  ⟨_, _, .inr ⟨hm, prbsSeg, .k7, false, 127, by rw [hf]; rfl, rfl, rfl, rfl, rfl⟩⟩

/-- A checker at a pause position has an uncounted reference. -/
theorem pauseReference {s : State} (hm : (s.lane 0).checker.mode = .sequence)
    (hp : (s.lane 0).checker.pos.pause ≠ 0) : ∃ next, UncountedReference s 0 next :=
  ⟨_, hm, .inl ⟨hp, rfl⟩⟩

/-- A checker at an uncounted segment has an uncounted reference. -/
theorem uncountedReference {sg : Segment} {f : LaneState → LaneState} {q : Pos} (hc : sg.counted = false)
    (hm : ((part sg f).lane 0).checker.mode = .sequence) (hp : ((part sg f).lane 0).checker.pos.pause = 0)
    (hs : ((part sg f).lane 0).checker.pos.seg = 0)
    (hq : ReferenceNext (checkerPlan (part sg f) 0) sg ((part sg f).lane 0).checker.pos q) :
    ∃ next, UncountedReference (part sg f) 0 next :=
  ⟨_, hm, .inr ⟨hp, sg, q, by rw [hs]; rfl, hc, hq, rfl⟩⟩

/-- Lane 0's checker on generator 0's loop. -/
def looped (l : LaneState) : LaneState := { l with route := { l.route with source := .loop 0 } }

theorem witness_VerifyCountsCleanWords :
    (FeedsOnly (part prbsSeg (verifying 3 (pos 0 0 1 1 0))) (.external 0) 0 ∧
      FeedsOnly (part prbsSeg fun l => looped (verifying 3 (pos 0 0 1 1 0) l)) (.loop 0) 0 ∧
      ((part prbsSeg (verifying 3 (pos 0 0 1 1 0))).lane 0).checker.state = .verify ∧
      ones (((0 : Word) ^^^ formWord [] prbsSeg 0 (pos 0 0 1 1 0)) &&& effectiveMask prbsSeg 1) ≠ 0 ∧
      ones (((0x55 : Word) ^^^ 0x55) &&& effectiveMask prbsSeg 1) = 0 ∧
      ((part prbsSeg (verifying 3 (pos 0 0 1 1 0))).lane 0).checker.config.verify.toNat ≤ (3 : BitVec 4).toNat + 1 ∧
      (2 : BitVec 4).toNat + 1 < ((part prbsSeg (verifying 2 (pos 0 0 1 1 0))).lane 0).checker.config.verify.toNat) ∧
    (∃ ref mask next, CountedReference (part prbsSeg (verifying 3 (pos 0 0 1 1 0))) 0 ref mask next) ∧
    (∃ ref next, CountedReference (part prbsSeg fun l => freeRunChecker (verifying 3 (pos 0 0 1 1 0) l)) 0 ref
      prbsSeg.mask next) ∧
    (∃ next, UncountedReference (part fillSeg (verifying 0 (pos 0 0 0 2 1))) 0 next) ∧
    ∃ next, UncountedReference (part fillSeg (verifying 0 (pos 0 0 0 2 0))) 0 next :=
  ⟨by unfold FeedsOnly; decide +kernel,
    countedWord (sg := prbsSeg) (q := pos 0 0 0 2 0) rfl (by decide) (by decide) (by decide)
      (by unfold ReferenceNext Onward AtPassEnd; decide),
    freeRunReference (by decide) (by decide), pauseReference (by decide) (by decide),
    uncountedReference (sg := fillSeg) (q := pos 0 0 0 3 0) rfl (by decide) (by decide) (by decide)
      (by unfold ReferenceNext Onward AtPassEnd; decide)⟩

/-- Lane 0 locked with the slip score at its threshold, in an interval of unit TIME. -/
def lockedLane (slip : BitVec 6) (l : LaneState) : LaneState :=
  timerAt .run Reset.progress
    { l with checker := { l.checker with state := .locked, slip := slip, pos := pos 0 0 1 1 0 } }

theorem witness_LockedWordIsAccumulated :
    (FeedsOnly (part prbsSeg (lockedLane 30)) (.external 0) 0 ∧
      ((part prbsSeg (lockedLane 30)).lane 0).checker.state = .locked ∧
      ((part prbsSeg (lockedLane 30)).lane 0).checker.slip.toNat + 1 ≤
        ((part prbsSeg (lockedLane 30)).lane 0).checker.config.threshold.toNat ∧
      (31 : BitVec 6).toNat = ((part prbsSeg (lockedLane 30)).lane 0).checker.slip.toNat + 1 ∧
      (29 : BitVec 6).toNat = ((part prbsSeg (lockedLane 30)).lane 0).checker.slip.toNat - 1) ∧
    (∃ ref mask next, CountedReference (part prbsSeg (lockedLane 30)) 0 ref mask next) ∧
    (∃ ref next, CountedReference (part prbsSeg fun l => freeRunChecker (lockedLane 30 l)) 0 ref prbsSeg.mask next) ∧
    ∃ next, UncountedReference (part fillSeg fun l => chkAt .locked (pos 0 0 0 1 0) l) 0 next :=
  ⟨by unfold FeedsOnly; decide +kernel,
    countedWord (sg := prbsSeg) (q := pos 0 0 0 2 0) rfl (by decide) (by decide) (by decide)
      (by unfold ReferenceNext Onward AtPassEnd; decide),
    freeRunReference (by decide) (by decide),
    uncountedReference (sg := fillSeg) (q := pos 0 0 0 2 0) rfl (by decide) (by decide) (by decide)
      (by unfold ReferenceNext Onward AtPassEnd; decide)⟩

/-- Lane 0's run counts at their maximum, with a run latch. -/
def fullRun (latch : Bool) (l : LaneState) : LaneState :=
  { l with acc := { l.acc with
    run := { l.acc.run with compared := { l.acc.run.compared with value := BitVec.allOnes 56 } }, runLatch := latch } }

theorem witness_CountsOverflowByMode :
    (7 ≤ 8 ∧ 64 ≤ 64 ∧ (200 : BitVec 8).toNat + 55 ≤ 2 ^ 8 - 1 ∧ 2 ^ 8 - 1 < (200 : BitVec 8).toNat + 56) ∧
    (((part prbsSeg (fullRun false)).lane 0).acc.runLatch = false ∧
      2 ^ 56 ≤ ((part prbsSeg (fullRun false)).lane 0).acc.run.compared.value.toNat + 1) ∧
    (counting ((part prbsSeg (lockedLane 0)).lane 0) = true ∧
      ((part prbsSeg fun l => { lockedLane 0 l with acc := { l.acc with interval := { l.acc.interval with
        words := { l.acc.interval.words with value := BitVec.allOnes 32 } } } }).lane 0).acc.interval.words.value =
          BitVec.allOnes 32) ∧
    (((part prbsSeg (fullRun true)).lane 0).acc.runLatch = true ∧
      counting ((part prbsSeg (fullRun true)).lane 0) = false) := by decide +kernel

theorem witness_LossOfLockReturnsToSearch :
    (FeedsOnly (part prbsSeg (lockedLane 31)) (.external 0) 0 ∧
      ((part prbsSeg (lockedLane 31)).lane 0).checker.state = .locked ∧
      0 < ones (((0 : Word) ^^^ formWord [] prbsSeg 0 (pos 0 0 1 1 0)) &&& effectiveMask prbsSeg 1) ∧
      ((part prbsSeg (lockedLane 31)).lane 0).checker.config.threshold.toNat <
        ((part prbsSeg (lockedLane 31)).lane 0).checker.slip.toNat + 1) ∧
    (∃ next, CountedReference (part prbsSeg (lockedLane 31)) 0 (formWord [] prbsSeg 0 (pos 0 0 1 1 0))
      (effectiveMask prbsSeg 1) next) ∧
    ∃ ref next, CountedReference (part prbsSeg fun l => freeRunChecker (lockedLane 31 l)) 0 ref prbsSeg.mask next :=
  ⟨by unfold FeedsOnly; decide +kernel,
    ⟨_, .inl ⟨by decide, by decide, prbsSeg, pos 0 0 0 2 0, rfl, rfl,
      by unfold ReferenceNext Onward AtPassEnd; decide, rfl, rfl, rfl⟩⟩,
    freeRunReference (by decide) (by decide)⟩

/-- Lane 0's timer in a state with a trigger, and a chain offer. -/
def timerOn (st : TimerState) (trigger : GateTrigger) (offer : ChainOffer) (l : LaneState) : LaneState :=
  { l with timer := { l.timer with
    state := st, chainOffer := offer, config := { l.timer.config with trigger := trigger } } }

theorem witness_WhatStartsAnInterval :
    (LaneOpen (part prbsSeg (timerOn .stop .levelLow .none)) .a 0 ∧
      ((part prbsSeg (timerOn .stop .levelLow .none)).lane 0).timer.state = .stop ∧
      ((part prbsSeg (timerOn .stop .levelLow .none)).lane 0).timer.config.trigger = .levelLow) ∧
    ((State.reset.lane 3).timer.config.trigger ≠ .levelHigh ∧ (State.reset.lane 3).timer.config.trigger ≠ .levelLow) ∧
    (((part prbsSeg (timerOn .wait .gateRise .none)).lane 0).timer.state = .wait ∧
      ((part prbsSeg (timerOn .wait .gateRise .none)).lane 0).gateLine ≠ .high ∧
      ((part prbsSeg (timerOn .wait .gateRise .none)).lane 0).timer.config.trigger.matchesEdge .high = true) ∧
    ((State.reset.lane 3).gateLine = .low ∧ (State.reset.lane 3).timer.state ≠ .wait ∧
      (State.reset.lane 3).timer.chainOffer.standing = false) ∧
    (((part prbsSeg (timerOn .wait (.chain 3) (ChainOffer.none.join (some .a)))).lane 0).timer.state = .wait ∧
      ((part prbsSeg (timerOn .wait (.chain 3) (ChainOffer.none.join (some .a)))).lane 0).timer.chainOffer.standing = true) := by
  unfold LaneOpen FramesTaken; decide

/-- Lane 0's interval at the length of its timer, in a mode. -/
def dueLane (mode : TimerMode) (l : LaneState) : LaneState :=
  { l with timer := { l.timer with
    state := .run
    config := { l.timer.config with mode := mode }
    progress := { Reset.progress with elapsed := 1000, sliceUnits := 1000 } } }

theorem witness_WhatClosesAnInterval :
    (LaneOpen (part prbsSeg (dueLane .once)) .a 0 ∧ (State.reset.lane 0).timer.state = .stop ∧
      ((part prbsSeg (timerOn .wait .soft .none)).lane 0).timer.state = .wait) ∧
    (((part prbsSeg (dueLane .once)).lane 0).timer.state = .run ∧
      ((part prbsSeg (dueLane .once)).lane 0).timer.progress.elapsed =
        ((part prbsSeg (dueLane .once)).lane 0).timer.config.length ∧
      ((part prbsSeg (dueLane .once)).lane 0).timer.config.mode = .once ∧
      ((part prbsSeg (dueLane .repeating)).lane 0).timer.config.mode = .repeating) := by
  unfold LaneOpen FramesTaken; decide

theorem witness_CloseMakesItsRecord :
    (State.reset.lane 0).timer.progress.elapsed = 0 ∧
    ((part prbsSeg (dueLane .once)).lane 0).timer.progress.elapsed ≠ 0 ∧
    ((part prbsSeg (dueLane .once)).lane 0).ring.records.length ≤ 16 := by decide

/-- Port A's hold-off timer in a state. -/
def holdoff (h : Holdoff) : State := State.reset.modPort .a fun v => { v with view := { v.view with holdoff := h } }

/-- A tick at which the TIME intervals of lanes 0 and 1 fall due, lane 2's counts on, lane 3 waits on lane 0's close,
and port A's hold-off timer runs. -/
def tickPart : State :=
  let run (elapsed : BitVec 24) : LaneState → LaneState := timerAt .run { Reset.progress with elapsed := elapsed }
  ((((holdoff { running := true, remaining := 2 }).modLane 0 (run 999)).modLane 1 (run 999)).modLane 2
    (run 998)).modLane 3 (timerOn .wait (.chain 0) .none)

theorem witness_TicksCountAndExpire :
    (∀ n : Lane, n ≠ 3 → (tickPart.lane n).timer.config.unit = .time ∧ counting (tickPart.lane n) = true ∧
      1 ≤ (tickPart.lane n).timer.config.length.toNat) ∧
    (dueAtTick (tickPart.lane 0) = true ∧ dueAtTick (tickPart.lane 1) = true ∧
      dueAtTick (tickPart.lane 2) = false ∧ counting (tickPart.lane 3) = false ∧
      (tickPart.lane 3).timer.state = .wait ∧ (tickPart.lane 3).timer.config.trigger = .chain 0) ∧
    (tickPart.port .a).view.holdoff.running = true ∧ (tickPart.port .b).view.holdoff.running = false := by decide

/-- R127, R130: in one tick two intervals close, each with its record, and a third counts on. -/
theorem test_tick_reaches_every_timer :
    ([0, 1, 2] : List Lane).map (fun n => ((after (exec .tick tickPart)).lane n).ring.nextSeq) = [1, 1, 0] ∧
    ((after (exec .tick tickPart)).lane 2).timer.progress.elapsed = 999 := by decide +kernel

/-- Lane 0's interval one unit short of its slice, and short of its length, in a unit. -/
def nearlySlice (unit : TimerUnit) (l : LaneState) : LaneState :=
  let m := lockedLane 1 l
  { m with timer := { m.timer with
    config := { m.timer.config with unit := unit }
    progress := { Reset.progress with elapsed := 998, sliceUnits := 999 } } }

theorem witness_SliceClosesInItsClass :
    (¬ ((State.reset.lane 3).timer.state = .run ∧
        (State.reset.lane 3).timer.progress.sliceUnits = (State.reset.lane 3).timer.config.slice) ∧
      ((part prbsSeg (dueLane .once)).lane 0).timer.state = .run ∧
      ((part prbsSeg (dueLane .once)).lane 0).timer.progress.sliceUnits =
        ((part prbsSeg (dueLane .once)).lane 0).timer.config.slice) ∧
    (∀ unit ∈ [TimerUnit.time, .words], counting ((part prbsSeg (nearlySlice unit)).lane 0) = true ∧
      ((part prbsSeg (nearlySlice unit)).lane 0).timer.progress.elapsed.toNat + 1 <
        ((part prbsSeg (nearlySlice unit)).lane 0).timer.config.length.toNat ∧
      ((part prbsSeg (nearlySlice unit)).lane 0).timer.progress.sliceUnits.toNat + 1 =
        ((part prbsSeg (nearlySlice unit)).lane 0).timer.config.slice.toNat ∧
      ((part prbsSeg (nearlySlice unit)).lane 0).timer.config.unit = unit ∧
      (∀ m : Lane, m ≠ 0 → ((part prbsSeg (nearlySlice unit)).lane m).timer.config.unit = .words ∨
        counting ((part prbsSeg (nearlySlice unit)).lane m) = false) ∧
      ((part prbsSeg (nearlySlice unit)).lane 0).checker.state = .locked) ∧
    FeedsOnly (part prbsSeg (nearlySlice .words)) (.external 0) 0 ∧
    (∃ ref mask next, CountedReference (part prbsSeg (nearlySlice .words)) 0 ref mask next) ∧
    ∀ ref mask : Word, (ref ^^^ ref) &&& mask = 0 :=
  ⟨by decide, by decide, by unfold FeedsOnly; decide,
    countedWord (sg := prbsSeg) (q := pos 0 0 0 2 0) rfl (by decide) (by decide) (by decide)
      (by unfold ReferenceNext Onward AtPassEnd; decide), fun _ _ => by simp⟩

/-- A full worst-slice list. -/
def fullList : List WorstEntry :=
  [{ index := 4, bits := 9 }, { index := 1, bits := 5 }, { index := 2, bits := 5 }, { index := 3, bits := 2 }]

theorem witness_WorstListKeepsItsOrder :
    fullList.length ≤ 4 ∧ fullList.length = 4 ∧
    fullList.Pairwise (fun x y => y.bits.toNat ≤ x.bits.toNat) ∧ ([] : List WorstEntry).length < 4 ∧
    (∃ x ∈ fullList, x.bits.toNat < (3 : BitVec 32).toNat) ∧
    ∀ x ∈ fullList, (2 : BitVec 32).toNat ≤ x.bits.toNat := by decide

/-- Lane 0 at its word limit. -/
def atLimit (l : LaneState) : LaneState :=
  limited { l with gen := { l.gen with state := .running, wordsEmitted := 1, pos := pos 0 0 0 1 0 } }

theorem witness_DueEventsActWhenDue :
    (((part prbsSeg (genAt .pausing (pos 0 0 0 2 0))).lane 0).gen.state = .pausing ∧
      ((part prbsSeg (genAt .pausing (pos 0 0 0 2 0))).lane 0).gen.pos.pause = 0 ∧
      (State.reset.lane 0).gen.state ≠ .pausing) ∧
    (((part prbsSeg atLimit).lane 0).gen.state = .running ∧ ((part prbsSeg atLimit).lane 0).plan.wordLimit ≠ 0 ∧
      ((part prbsSeg atLimit).lane 0).gen.wordsEmitted.toNat =
        ((part prbsSeg atLimit).lane 0).plan.wordLimit.toNat ∧ (State.reset.lane 0).gen.state = .stopped) ∧
    (((holdoff { running := true, remaining := 0 }).port .a).view.holdoff.running = true ∧
      ((holdoff { running := true, remaining := 0 }).port .a).view.holdoff.remaining = 0 ∧
      ((holdoff { running := true, remaining := 1 }).port .a).view.holdoff.remaining ≠ 0) := by decide

theorem witness_RateFiguresAgreeWithThresholds :
    0 < 2 ^ 56 ∧ 2 ^ 56 - 1 < 2 ^ 56 ∧ 2 ^ 56 - 1 ≠ 0 ∧ (0 < 1 ∧ 1 < 2 ^ 56 - 1) ∧ 24 ≤ 1000 ∧
    32768 ≤ (32768 : BitVec 16).toNat ∧ (32768 : BitVec 16) ≠ 0 := by decide

/-- Ring 0 with one record, port A's cursor on it. -/
def ringPart : State :=
  after (exec (.gateStop Port.b.frame [0]) (part prbsSeg (timerAt .run { Reset.progress with elapsed := 1 })))

theorem ringSound_ringPart : RingSound (ringPart.lane 0).ring := by
  refine ⟨by decide +kernel, fun k h => ?_⟩
  have hk : k = 0 := by
    have : (ringPart.lane 0).ring.records.length = 1 := by decide +kernel
    omega
  subst hk
  have e : (ringPart.lane 0).ring.records[0]?.map IntervalRecord.sequence = some 0 := by decide +kernel
  rw [List.getElem?_eq_getElem h] at e
  have e' : (0 : BitVec 32) = (ringPart.lane 0).ring.nextSeq -
      BitVec.ofNat 32 (ringPart.lane 0).ring.records.length + BitVec.ofNat 32 0 := by decide +kernel
  exact (Option.some.inj e).trans e'

/-- A record with every optional part and one worst slice. -/
def fullRecord : IntervalRecord :=
  { sequence := 1, lane := 2, cause := .gateStop, unit := .words, elapsed := 3, compared := 64, errored := 5, words := 1
    figure := rateFigure 5 64, alarm := true, comparedSaturated := false, erroredSaturated := false
    wordsSaturated := true, slicesClosed := 1, clean := 0, erroredSlices := 1, severe := 0, unavailable := 0
    gains := 0, losses := 0, tallies := some { compared := 1, errored := 2, words := 3 }, firstError := some 7
    injected := some 8, worst := [{ index := 0, bits := 5 }] }

/-- R181, Table 11-5: the flags byte, and the last entry behind the three optional parts. -/
theorem test_record_bytes :
    byteAt (recordBytes fullRecord) 7 = 0x8F ∧ (recordBytes fullRecord).drop 49 =
      [1, 2, 3, 0, 0, 0, 0, 0, 7, 0, 0, 0, 8, 0, 0, 0, 0, 0, 0, 5] := by decide +kernel

theorem witness_ResultCursorsFollowTheRing :
    (fullRecord.worst.length ≤ 4 ∧ 0 < fullRecord.worst.length ∧ fullRecord.tallies.isSome = true ∧
      fullRecord.firstError.isSome = true ∧ fullRecord.injected.isSome = true) ∧
    (FramesTaken ringPart .a ∧ 0 < (ringPart.lane 0).ring.records.length ∧ RingSound (ringPart.lane 0).ring ∧
      (ringPart.port .a).results[0].next = (ringPart.lane 0).ring.nextSeq -
        BitVec.ofNat 32 (ringPart.lane 0).ring.records.length + BitVec.ofNat 32 0) ∧
    (State.reset.port .a).results[0].next = (State.reset.lane 0).ring.nextSeq ∧ LaneOpen ringPart .a 0 :=
  ⟨by decide, ⟨by unfold FramesTaken; decide +kernel, by decide +kernel, ringSound_ringPart, by decide +kernel⟩, by decide,
    by unfold LaneOpen FramesTaken; decide +kernel⟩

theorem witness_StatusReadsChangeNothing : FramesTaken ringPart .a ∧ 0 + 1 < (be 2 258).length ∧ 1 < 2 := by
  unfold FramesTaken; decide +kernel

theorem witness_DeviceResetLeavesResetValues :
    (deviceResetState State.reset .held).resetPhase = .held ∧ State.reset.resetPhase ≠ .held := by decide

/-! The invariants: a state in which a generator runs and an interval counts, with a step that it takes. -/

/-- GEN 0 running under its VALID plan, TIMER 0 in RUN, a tick in front of the queue. -/
def busyPart : State :=
  { part prbsSeg (fun l => timerAt .run { Reset.progress with sliceMark := true } (genAt .running (pos 0 0 1 1 0) l))
    with pending := [.transmitSlot 0, .tick] }

theorem busyPart_steps : ∃ t, step busyPart = .next t := exists_next (by decide +kernel)

theorem witness_StoredDataStaysInRange : StoreCanonical busyPart ∧ StoredInRange busyPart := by
  refine ⟨by unfold StoreCanonical Memory.wf; decide +kernel, fun i sg h => ?_, fun n => ⟨?_, ?_, ?_⟩⟩
  rotate_left
  · revert n; decide +kernel
  · have : ∀ m : Lane, (busyPart.lane m).inject = { setting := .off, periodCount := 0, bits := 0, words := 0 } := by
      decide +kernel
    rw [this n]
    rfl
  · revert n; unfold ThresholdInRange; decide +kernel
  by_cases hi : i = 0
  · subst hi
    have : busyPart.record 0 = some prbsSeg := by decide +kernel
    rw [this] at h
    cases h
    exact ⟨by decide, by decide, by decide, by decide, fun o _ s hk => by cases hk; decide⟩
  · have : ∀ j : Fin 64, j ≠ 0 → busyPart.record j = none := by decide +kernel
    rw [this i hi] at h
    cases h

theorem witness_CheckersAndTimersStaySound : CheckersSound busyPart ∧ TimersSound busyPart ∧ MarksSound busyPart := by
  unfold CheckersSound CheckerSound TimersSound TimerSound MarksSound; decide +kernel

theorem witness_CountsStaySound : AllCountsSound busyPart := by
  refine fun n => ⟨?_, ?_, fun v h => ?_⟩
  · revert n; decide +kernel
  · revert n; decide +kernel
  · have : ∀ m : Lane, (busyPart.lane m).acc.interval.firstError = none := by decide +kernel
    rw [this n] at h
    cases h

theorem witness_RingsStaySound : RingsSound ringPart := by
  refine fun n => ⟨?_, fun p => ?_⟩
  · by_cases hn : n = 0
    · subst hn; exact ringSound_ringPart
    · have : ∀ m : Lane, m ≠ 0 → (ringPart.lane m).ring = { records := [], nextSeq := 0 } := by decide +kernel
      rw [this n hn]
      exact ⟨by decide, fun k h => absurd h (Nat.not_lt_zero k)⟩
  · cases p <;> revert n <;> decide +kernel

theorem witness_WalkersStaySound : WalkersSound busyPart := by
  have h0 : busyPart.record 0 = some prbsSeg := by decide +kernel
  refine ⟨fun n hv => ?_, by decide +kernel, by unfold MarksReach; decide +kernel, by decide +kernel,
    by unfold MarksReach; decide +kernel, by decide +kernel⟩
  have hn : n = 0 := (by decide +kernel : ∀ m : Lane, (busyPart.lane m).plan.valid = true → m = 0) n hv
  subst hn
  refine ⟨by decide +kernel, by decide +kernel, fun _ => ⟨by decide +kernel, fun i sg u hi hr ht => ?_⟩, fun h => ?_⟩
  · have hi0 : i = 0 :=
      (by decide +kernel : ∀ j : Fin 64, (busyPart.lane 0).plan.reach.getLsbD j.val = true → j = 0) i hi
    subst hi0
    rw [h0] at hr
    cases hr
    cases ht
  · exact absurd h (by decide +kernel)

/-- OffersSound, as Lean decides it. -/
theorem offersSound_of {s : State}
    (h : ∀ n : Lane, (s.lane n).timer.chainOffer.standing = true →
      (s.lane n).timer.state = .wait ∧ ∃ m : Lane, m ≠ n ∧ (s.lane n).timer.config.trigger = .chain m)
    (ha : ∀ n : Lane, (s.lane n).timer.chainOffer.owed .a = true → (s.lane n).timer.chainOffer.standing = true)
    (hb : ∀ n : Lane, (s.lane n).timer.chainOffer.owed .b = true → (s.lane n).timer.chainOffer.standing = true) :
    OffersSound s :=
  fun n => ⟨h n, fun p => by cases p; exacts [ha n, hb n]⟩

theorem witness_NothingIsLeftDueOrPending : Settled busyPart ∧ OffersSound busyPart ∧ PendingOnlyInRun busyPart := by
  refine ⟨⟨by unfold LaneSettled; decide +kernel, fun p => by cases p <;> decide +kernel⟩,
    offersSound_of (by decide +kernel) (by decide +kernel) (by decide +kernel), ?_⟩
  unfold PendingOnlyInRun
  decide +kernel

theorem ringsSound_busyPart : RingsSound busyPart := by
  have : ∀ m : Lane, (busyPart.lane m).ring = { records := [], nextSeq := 0 } := by decide +kernel
  refine fun n => ⟨?_, fun p => ?_⟩
  · rw [this n]
    exact ⟨by decide, fun k h => absurd h (Nat.not_lt_zero k)⟩
  · cases p <;> revert n <;> decide +kernel

theorem witness_SoundStatesNeverStop :
    Instr.WellFormed (.transmitSlot 0) = true ∧ WalkersSound busyPart ∧ RingsSound busyPart :=
  ⟨rfl, witness_WalkersStaySound, ringsSound_busyPart⟩

theorem witness_OnlyTheirCommandsChangeTheTables :
    (∃ t, exec (.transmitSlot 0) busyPart = .next t) ∧ Instr.transmitSlot 0 ≠ .deviceReset :=
  ⟨exists_next (by decide +kernel), by decide⟩

theorem witness_ReservationGuardsTheLane :
    frameBytes (.laneHalt Port.a.frame [0]) = some (Port.a.frame, [0x2A, 0]) ∧
    (heldByB 0 busyPart).holder (laneResource 0) = some (otherPort .a) ∧
    ∃ t, exec (.laneHalt Port.a.frame [0]) (heldByB 0 busyPart) = .next t :=
  ⟨by decide, by decide, exists_next (by decide +kernel)⟩

/-- Lane 1's timer waits on the close of lane 0's, which is in RUN. -/
def chainPart : State :=
  (part prbsSeg (timerOn .run .soft .none)).modLane 1 (timerOn .wait (.chain 0) .none)

/-- The same after port A has retriggered lane 0's timer. -/
def offeredPart : State := after (exec (.gateTrigger Port.a.frame [0]) chainPart)

theorem witness_FramesFindEarlierEffects :
    (Instr.WellFormed (.gateStatus Port.a.frame [1]) = true ∧
      frameBytes (.gateStatus Port.a.frame [1]) = some (Port.a.frame, [0x4C, 1]) ∧
      offeredPart.resetPhase = .released ∧ (offeredPart.lane 1).timer.chainOffer.owed .a = true ∧
      OffersSound offeredPart) ∧
    LaneOpen chainPart .a 0 ∧ (chainPart.lane 0).timer.state = .run ∧ (1 : Lane) ≠ 0 ∧
    (chainPart.lane 1).timer.state = .wait ∧ (chainPart.lane 1).timer.config.trigger = .chain 0 ∧
    ∃ t, exec (.gateTrigger Port.a.frame [laneCode 0]) chainPart = .next t :=
  ⟨⟨by decide, by decide, by decide +kernel, by decide +kernel,
      offersSound_of (by decide +kernel) (by decide +kernel) (by decide +kernel)⟩,
      by unfold LaneOpen FramesTaken; decide, by decide, by decide, by decide,
    by decide, exists_next (by decide +kernel)⟩

/-- R124, R183: the follower of a retriggered source is in RUN for the port's next frame, and may still be in WAIT for
the other port's. -/
theorem test_follower_starts_before_next_frame :
    ((after (exec (.gateStatus Port.a.frame [1]) offeredPart)).lane 1).timer.state = .run ∧
    ((after (exec (.gateStatus Port.b.frame [1]) offeredPart)).lane 1).timer.state = .wait := by decide +kernel

/-- R178: a select activity that began less than 1 ms after RESET_N's rise is no frame. -/
theorem test_early_frame_is_ignored :
    exec (.reserve { port := .a, early := true } [19]) State.reset = .next State.reset := rfl

theorem witness_PortsDoNotReachEachOther :
    frameBytes (.portReset Port.a.frame []) = some (Port.a.frame, [0x03]) ∧ ∃ t,
    exec (.portReset Port.a.frame []) busyPart = .next t :=
  ⟨by decide, exists_next (by decide +kernel)⟩

end Sys2Proof.Tests
end

section
/-!
PROOF. What a command can do, once for all of them: `Taken` for a frame whose command is not refused, `LineNext` for
what reaches the part by its lines, buses and timebase, and `exec_cases`, which says that nothing else happens.
-/

namespace Sys2Proof.Machine

/-! ### Frames -/

/-- Lane n is not held by the port other than `p` (R168). -/
def LaneFree (s : State) (p : Port) (n : Lane) : Prop := s.holder (laneResource n) ≠ some (otherPort p)

/-- What the command of a frame leaves of the state `s` that it was taken in, when it is not refused; the response to it
stands aside. -/
inductive Taken (f : Select) : Instr → State → State → Prop where
  /-- The commands that only answer. -/
  | reads (c : Instr) (s : State) : Taken f c s s
  /-- INJECT_READ and GATE_STATUS, whose replies hold free bytes (logs 8 and 9). -/
  | readsFree (c : Instr) (s : State) (k : Nat) : Taken f c s (s.useFree k)
  /-- SEG_SELECT and SEG_READ (R15, R17). -/
  | segCursor (c : Instr) (s : State) (cursor : Fin 65) :
      Taken f c s (s.modPort f.port fun v => v.setSegCursor cursor)
  /-- WORD_SELECT and WORD_READ (R19, R21). -/
  | wordCursor (c : Instr) (s : State) (cursor : Fin 4097) :
      Taken f c s (s.modPort f.port fun v => v.setWordCursor cursor)
  | eventClear (args : List Byte) (s : State) (e : EventSet) :
      Taken f (.eventClear f args) s (s.modPort f.port fun v => { v with view := clearEvents v.view e })
  | eventEnable (args : List Byte) (s : State) (e : EventSet) :
      Taken f (.eventEnable f args) s (s.modPort f.port fun v => { v with view := { v.view with enable := e } })
  | holdoffSet (args : List Byte) (s : State) (h : Byte) :
      Taken f (.holdoffSet f args) s (s.modPort f.port fun v => { v with view := { v.view with length := h } })
  | portReset (s : State) : Taken f (.portReset f []) s ((releaseAll s f.port).modPort f.port (resetPort s))
  | reserve (args : List Byte) (s : State) (r : Fin 20) (free : s.holder r ≠ some (otherPort f.port)) :
      Taken f (.reserve f args) s (s.setHolder r (some f.port))
  | release (args : List Byte) (s : State) (r : Fin 20) (held : s.holder r = some f.port) :
      Taken f (.release f args) s (s.setHolder r none)
  | segWrite (args : List Byte) (s : State) (i : Fin 64) (sg : Segment)
      (cursor : cursorSegment (s.port f.port).segCursor = some i) (record : segmentOfBytes args = some sg)
      (free : s.holder (segResource i) ≠ some (otherPort f.port)) (unused : (s.seg i).useSet = 0) :
      Taken f (.segWrite f args) s
        ((writeSegment s i sg).modPort f.port fun v => v.setSegCursor (afterSegment i))
  | segClear (b : Byte) (s : State) (i : Fin 64) (index : segIndexOfByte b = some i)
      (free : s.holder (segResource i) ≠ some (otherPort f.port)) (unused : (s.seg i).useSet = 0) :
      Taken f (.segClear f [b]) s (clearSegment s i)
  | wordWrite (n : Byte) (data : List Byte) (s : State) (m : Nat)
      (fits : m = wordsFitting (s.port f.port).wordCursor n.toNat)
      (free : wordsReserved s f.port (s.port f.port).wordCursor m = false) :
      Taken f (.wordWrite f (n :: data)) s
        ({ s with store := storeWriteMany s.store (s.port f.port).wordCursor.val (wordsOfBytes m data) }.modPort f.port
          fun v => v.setWordCursor (advanceWordCursor (s.port f.port).wordCursor m))
  | planSet (args : List Byte) (s : State) (n : Lane) (pl : Plan)
      (plan : planOfBytes (s.lane n).plan (args.drop 1) = some pl) (lane : LaneFree s f.port n)
      (idle : planInUse s n = false) : Taken f (.planSet f args) s (s.setPlan n (validated s.record pl))
  | planCheck (s : State) (n : Lane) (lane : LaneFree s f.port n) (idle : planInUse s n = false) :
      Taken f (.planCheck f [laneCode n]) s (s.setPlan n (validated s.record (s.lane n).plan))
  | laneStart (s : State) (n : Lane) (lane : LaneFree s f.port n) (state : (s.lane n).gen.state = .stopped)
      (valid : (s.lane n).plan.valid = true) : Taken f (.laneStart f [laneCode n]) s (startLane s n)
  | laneTrigger (s : State) (n : Lane) (lane : LaneFree s f.port n) (state : (s.lane n).gen.state ≠ .stopped) :
      Taken f (.laneTrigger f [laneCode n]) s (takeTrigger s n).2
  | laneHalt (s : State) (n : Lane) (lane : LaneFree s f.port n) (state : (s.lane n).gen.state ≠ .stopped) :
      Taken f (.laneHalt f [laneCode n]) s (haltLane s n)
  | injectSet (args : List Byte) (s : State) (n : Lane) (x : Injection) (lane : LaneFree s f.port n)
      (setting : injectionOfBytes (byteAt args 1) (byteAt args 2) (byteAt args 3) (fieldAt args 4 3) = some x) :
      Taken f (.injectSet f args) s ((s.modLane n (setInjection x)).useFree injectionFree)
  | injectTotalsClear (s : State) (n : Lane) (lane : LaneFree s f.port n) :
      Taken f (.injectTotalsClear f [laneCode n]) s
        (s.modLane n fun l => { l with inject := { l.inject with bits := 0, words := 0 } })
  | sigClear (s : State) (n : Lane) (lane : LaneFree s f.port n) :
      Taken f (.sigClear f [laneCode n]) s (s.modLane n fun l => { l with sig := { reg := 0, pass := none } })
  | routeSet (args : List Byte) (s : State) (n : Lane) (r : Route) (lane : LaneFree s f.port n)
      (state : (s.lane n).checker.state = .off) :
      Taken f (.routeSet f args) s (s.modLane n fun l => { l with route := r })
  | checkConfig (s : State) (n : Lane) (b plan v th mode : Byte) (cfg : CheckConfig) (lane : LaneFree s f.port n)
      (config : checkConfigOfBytes plan v th mode = some cfg) (state : (s.lane n).checker.state = .off) :
      Taken f (.checkConfig f [b, plan, v, th, mode]) s (s.modLane n (configureChecker cfg))
  | checkStart (s : State) (n : Lane) (lane : LaneFree s f.port n) (state : (s.lane n).checker.state = .off)
      (valid : (checkerPlan s n).valid = true) : Taken f (.checkStart f [laneCode n]) s (startChecker s n)
  | checkStop (s : State) (n : Lane) (lane : LaneFree s f.port n) :
      Taken f (.checkStop f [laneCode n]) s (stopChecker s n)
  | totalsClear (s : State) (n : Lane) (lane : LaneFree s f.port n) :
      Taken f (.totalsClear f [laneCode n]) s (s.modLane n fun l => l.modAcc zeroRun)
  | gateConfig (args : List Byte) (s : State) (n : Lane) (cfg : TimerConfig) (lane : LaneFree s f.port n)
      (config : timerConfigOfBytes n (args.drop 1) = some cfg) (state : (s.lane n).timer.state = .stop) :
      Taken f (.gateConfig f args) s
        ((s.modLane n fun l => { l with timer := { l.timer with config := cfg } }).useFree (chainFree cfg.trigger))
  | gateArm (s : State) (n : Lane) (lane : LaneFree s f.port n) (state : (s.lane n).timer.state = .stop) :
      Taken f (.gateArm f [laneCode n]) s (s.modLane n armTimer)
  | gateStart (s : State) (n : Lane) (lane : LaneFree s f.port n) (state : (s.lane n).timer.state = .wait) :
      Taken f (.gateTrigger f [laneCode n]) s (s.modLane n startInterval)
  | gateRetrigger (s : State) (n : Lane) (lane : LaneFree s f.port n) (state : (s.lane n).timer.state = .run) :
      Taken f (.gateTrigger f [laneCode n]) s (closeAndRestart s n .retrigger (some f.port))
  | gateStop (s : State) (n : Lane) (lane : LaneFree s f.port n) :
      Taken f (.gateStop f [laneCode n]) s (stopTimer s n)
  | resultRead (s : State) (n : Lane) (r : IntervalRecord)
      (unread : (s.port f.port).results[n].next ≠ (s.lane n).ring.nextSeq)
      (named : namedRecord (s.lane n).ring (s.port f.port).results[n] = some r) :
      Taken f (.resultRead f [laneCode n]) s (s.modPort f.port fun v => v.modResult n readCursor)
  | resultClear (s : State) (n : Lane) (lane : LaneFree s f.port n) :
      Taken f (.resultClear f [laneCode n]) s (clearRing s n)

/-- All that the frame of a command can do: nothing, or, over the state that the port's earlier commands leave, at most
what a refusal changes, or what its command does, under a new response. -/
def FrameNext (f : Select) (c : Instr) (s t : State) : Prop :=
  t = s ∨
  (s.resetPhase = .released ∧ f.early = false ∧
    (RefusedAlike f.port (s.startOwed f.port) t ∨
      ∃ len u r, Taken f c ((s.startOwed f.port).shifted f.port len) u ∧ t = u.respond f.port r))

theorem portCommand_frameNext {f : Select} {c : Instr} {code : Byte} {args : List Byte} {body : State → Answer}
    {s t : State} (h : portCommand f code args body s = .next t)
    (hb : ∀ v st fields u, body v = .done st fields u → Taken f c v u) : FrameNext f c s t := by
  rcases portCommand_next h with h | ⟨hr, he, h | ⟨st, fields, u, hu, rfl⟩⟩
  · exact .inl h
  · exact .inr ⟨hr, he, .inl h⟩
  · exact .inr ⟨hr, he, .inr ⟨_, u, _, hb _ _ _ _ hu, rfl⟩⟩

theorem bareCommand_frameNext {f : Select} {c : Instr} {code : Byte} {args : List Byte} {body : State → Answer}
    {s t : State} (h : bareCommand f code args body s = .next t)
    (hb : ∀ v st fields u, body v = .done st fields u → Taken f c v u) : FrameNext f c s t := by
  rcases bareCommand_next h with h | ⟨hr, he, h | ⟨st, fields, u, hu, rfl⟩⟩
  · exact .inl h
  · exact .inr ⟨hr, he, .inl h⟩
  · exact .inr ⟨hr, he, .inr ⟨_, u, _, hb _ _ _ _ hu, rfl⟩⟩

/-- A lane command that is taken found its lane free, if it needs one. -/
theorem laneCommand_frameNext {f : Select} {c : Instr} {code : Byte} {needs : Bool} {args : List Byte}
    {body : Lane → State → Answer} {s t : State} (h : laneCommand f code needs args body s = .next t)
    (hb : ∀ n v st fields u, args = [laneCode n] → (needs = true → LaneFree v f.port n) →
      body n v = .done st fields u → Taken f c v u) : FrameNext f c s t := by
  rcases laneCommand_next h with h | ⟨hr, he, h | ⟨n, st, fields, u, ha, hfree, hu, rfl⟩⟩
  · exact .inl h
  · exact .inr ⟨hr, he, .inl h⟩
  · have hl : needs = true → LaneFree ((s.startOwed f.port).shifted f.port 2) f.port n := fun hn => by
      simpa [LaneFree] using hfree hn
    exact .inr ⟨hr, he, .inr ⟨2, u, _, hb n _ st fields u ha hl hu, rfl⟩⟩

theorem LaneFree.of_not_held {s : State} {p : Port} {n : Lane} (h : ¬ heldByOther s p (laneResource n) = true) :
    LaneFree s p n := by
  rwa [heldByOther_eq_true] at h

/-- PORT_RESET leaves the response buffer at NONE, as a response of its own would. -/
theorem resetPort_respond (s t : State) (p : Port) :
    (t.modPort p (resetPort s)).respond p Reset.response = t.modPort p (resetPort s) := by
  cases p <;> rfl

/-! ### Each frame -/

section
variable {f : Select} {args : List Byte} {s t : State}

theorem execNop_frameNext (h : execNop f args s = .next t) : FrameNext f (.nop f args) s t := by
  unfold execNop at h
  rcases frameEnds_next h with rfl | ⟨hr, he, h⟩
  · exact .inl rfl
  · cases h
    exact .inr ⟨hr, he, .inl (by constructor <;> simp)⟩

theorem execEmptyFrame_frameNext (h : execEmptyFrame f s = .next t) : FrameNext f (.emptyFrame f) s t := by
  unfold execEmptyFrame at h
  rcases frameEnds_next h with rfl | ⟨hr, he, h⟩
  · exact .inl rfl
  · cases h
    exact .inr ⟨hr, he, .inl (.same _ _)⟩

theorem execPortReset_frameNext (h : execPortReset f args s = .next t) : FrameNext f (.portReset f args) s t := by
  unfold execPortReset at h
  rcases frameEnds_next h with rfl | ⟨hr, he, h⟩
  · exact .inl rfl
  · refine .inr ⟨hr, he, ?_⟩
    simp only at h
    split at h
    · rename_i ha
      subst ha
      cases h
      exact .inr ⟨_, _, Reset.response, .portReset _, (resetPort_respond ..).symm⟩
    · simp only [settleAnswer, if_true] at h
      cases h
      exact .inl (by constructor <;> simp +contextual)

theorem execUnknownCodeFrame_frameNext {code : Byte} (h : execUnknownCodeFrame f code args s = .next t) :
    FrameNext f (.unknownCodeFrame f code args) s t := by
  unfold execUnknownCodeFrame at h
  split at h
  · cases h
  · exact portCommand_frameNext h fun _ _ _ _ hb => by cases hb

theorem execIdentify_frameNext (h : execIdentify f args s = .next t) : FrameNext f (.identify f args) s t := by
  unfold execIdentify at h
  exact bareCommand_frameNext h fun v _ _ _ hb => by cases hb; exact .reads _ v

theorem execReservationRead_frameNext (h : execReservationRead f args s = .next t) :
    FrameNext f (.reservationRead f args) s t := by
  unfold execReservationRead at h
  exact bareCommand_frameNext h fun v _ _ _ hb => by cases hb; exact .reads _ v

theorem execEventRead_frameNext (h : execEventRead f args s = .next t) : FrameNext f (.eventRead f args) s t := by
  unfold execEventRead at h
  exact bareCommand_frameNext h fun v _ _ _ hb => by cases hb; exact .reads _ v

theorem execSegRead_frameNext (h : execSegRead f args s = .next t) : FrameNext f (.segRead f args) s t := by
  unfold execSegRead at h
  refine bareCommand_frameNext h fun v _ _ _ hb => ?_
  split at hb <;> cases hb
  exact .segCursor ..

theorem execReserve_frameNext (h : execReserve f args s = .next t) : FrameNext f (.reserve f args) s t := by
  unfold execReserve at h
  refine portCommand_frameNext h fun v _ _ _ hb => ?_
  split at hb
  · split at hb
    · cases hb
    · split at hb <;> cases hb
      exact .reserve _ _ _ (heldByOther_eq_true.not.mp ‹_›)
  · cases hb

theorem execRelease_frameNext (h : execRelease f args s = .next t) : FrameNext f (.release f args) s t := by
  unfold execRelease at h
  refine portCommand_frameNext h fun v _ _ _ hb => ?_
  split at hb
  · split at hb
    · cases hb
    · split at hb <;> cases hb
      exact .release _ _ _ ‹_›
  · cases hb

theorem execEventClear_frameNext (h : execEventClear f args s = .next t) : FrameNext f (.eventClear f args) s t := by
  unfold execEventClear at h
  refine portCommand_frameNext h fun v _ _ _ hb => ?_
  split at hb
  · split at hb <;> cases hb
    exact .eventClear ..
  · cases hb

theorem execEventEnable_frameNext (h : execEventEnable f args s = .next t) :
    FrameNext f (.eventEnable f args) s t := by
  unfold execEventEnable at h
  refine portCommand_frameNext h fun v _ _ _ hb => ?_
  simp only at hb
  split at hb
  · split at hb <;> cases hb
    exact .eventEnable ..
  · cases hb

theorem execHoldoffSet_frameNext (h : execHoldoffSet f args s = .next t) : FrameNext f (.holdoffSet f args) s t := by
  unfold execHoldoffSet at h
  refine portCommand_frameNext h fun v _ _ _ hb => ?_
  simp only at hb
  split at hb <;> cases hb
  exact .holdoffSet ..

theorem execSegSelect_frameNext (h : execSegSelect f args s = .next t) : FrameNext f (.segSelect f args) s t := by
  unfold execSegSelect at h
  refine portCommand_frameNext h fun v _ _ _ hb => ?_
  split at hb
  · split at hb <;> cases hb
    exact .segCursor ..
  · cases hb

theorem execSegWrite_frameNext (h : execSegWrite f args s = .next t) : FrameNext f (.segWrite f args) s t := by
  unfold execSegWrite at h
  refine portCommand_frameNext h fun v _ _ _ hb => ?_
  split at hb
  · split at hb
    · split at hb
      · cases hb
      · split at hb <;> cases hb
        exact .segWrite _ _ _ _ ‹_› ‹_› (heldByOther_eq_true.not.mp ‹_›) (not_not.mp ‹_›)
    · cases hb
  · cases hb

theorem execSegClear_frameNext (h : execSegClear f args s = .next t) : FrameNext f (.segClear f args) s t := by
  unfold execSegClear at h
  refine portCommand_frameNext h fun v _ _ _ hb => ?_
  split at hb
  · split at hb
    · cases hb
    · split at hb
      · cases hb
      · split at hb <;> cases hb
        exact .segClear _ _ _ ‹_› (heldByOther_eq_true.not.mp ‹_›) (not_not.mp ‹_›)
  · cases hb

theorem execWordSelect_frameNext (h : execWordSelect f args s = .next t) : FrameNext f (.wordSelect f args) s t := by
  unfold execWordSelect at h
  refine portCommand_frameNext h fun v _ _ _ hb => ?_
  split at hb
  · split at hb <;> cases hb
    exact .wordCursor ..
  · cases hb

theorem execWordWrite_frameNext (h : execWordWrite f args s = .next t) : FrameNext f (.wordWrite f args) s t := by
  unfold execWordWrite at h
  refine portCommand_frameNext h fun v _ _ _ hb => ?_
  simp only at hb
  split at hb
  · cases hb
  · split at hb
    · split at hb <;> cases hb
      exact .wordWrite _ _ _ _ rfl (Bool.eq_false_iff.mpr ‹_›)
    · cases hb

theorem execWordRead_frameNext (h : execWordRead f args s = .next t) : FrameNext f (.wordRead f args) s t := by
  unfold execWordRead at h
  refine portCommand_frameNext h fun v _ _ _ hb => ?_
  simp only at hb
  split at hb <;> cases hb
  exact .wordCursor ..

theorem execPlanSet_frameNext (h : execPlanSet f args s = .next t) : FrameNext f (.planSet f args) s t := by
  unfold execPlanSet at h
  refine portCommand_frameNext h fun v _ _ _ hb => ?_
  split at hb
  · split at hb
    · cases hb
    · split at hb
      · cases hb
      · split at hb
        · cases hb
        · split at hb <;> cases hb
          exact .planSet _ _ _ _ ‹_› (.of_not_held ‹_›) (Bool.eq_false_iff.mpr ‹_›)
  · cases hb

theorem execPlanCheck_frameNext (h : execPlanCheck f args s = .next t) : FrameNext f (.planCheck f args) s t := by
  unfold execPlanCheck at h
  refine laneCommand_frameNext h fun n v _ _ _ ha hl hb => ?_
  subst ha
  split at hb <;> cases hb
  exact .planCheck _ _ (hl rfl) (Bool.eq_false_iff.mpr ‹_›)

theorem execPlanRead_frameNext (h : execPlanRead f args s = .next t) : FrameNext f (.planRead f args) s t := by
  unfold execPlanRead at h
  exact laneCommand_frameNext h fun n v _ _ _ _ _ hb => by cases hb; exact .reads _ v

theorem execLaneStatus_frameNext (h : execLaneStatus f args s = .next t) : FrameNext f (.laneStatus f args) s t := by
  unfold execLaneStatus at h
  exact laneCommand_frameNext h fun n v _ _ _ _ _ hb => by cases hb; exact .reads _ v

theorem execSigRead_frameNext (h : execSigRead f args s = .next t) : FrameNext f (.sigRead f args) s t := by
  unfold execSigRead at h
  exact laneCommand_frameNext h fun n v _ _ _ _ _ hb => by cases hb; exact .reads _ v

theorem execCheckStatus_frameNext (h : execCheckStatus f args s = .next t) :
    FrameNext f (.checkStatus f args) s t := by
  unfold execCheckStatus at h
  exact laneCommand_frameNext h fun n v _ _ _ _ _ hb => by cases hb; exact .reads _ v

theorem execTotalsRead_frameNext (h : execTotalsRead f args s = .next t) : FrameNext f (.totalsRead f args) s t := by
  unfold execTotalsRead at h
  exact laneCommand_frameNext h fun n v _ _ _ _ _ hb => by cases hb; exact .reads _ v

theorem execResultPeek_frameNext (h : execResultPeek f args s = .next t) : FrameNext f (.resultPeek f args) s t := by
  unfold execResultPeek at h
  refine laneCommand_frameNext h fun n v _ _ _ _ _ hb => ?_
  simp only at hb
  split at hb <;> cases hb <;> exact .reads _ v

theorem execInjectRead_frameNext (h : execInjectRead f args s = .next t) : FrameNext f (.injectRead f args) s t := by
  unfold execInjectRead at h
  exact laneCommand_frameNext h fun n v _ _ _ _ _ hb => by cases hb; exact .readsFree ..

theorem execGateStatus_frameNext (h : execGateStatus f args s = .next t) : FrameNext f (.gateStatus f args) s t := by
  unfold execGateStatus at h
  exact laneCommand_frameNext h fun n v _ _ _ _ _ hb => by cases hb; exact .readsFree ..

theorem execLaneStart_frameNext (h : execLaneStart f args s = .next t) : FrameNext f (.laneStart f args) s t := by
  unfold execLaneStart at h
  refine laneCommand_frameNext h fun n v _ _ _ ha hl hb => ?_
  subst ha
  split at hb <;> cases hb
  rename_i hg
  exact .laneStart _ _ (hl rfl) hg.1 hg.2

theorem execLaneTrigger_frameNext (h : execLaneTrigger f args s = .next t) :
    FrameNext f (.laneTrigger f args) s t := by
  unfold execLaneTrigger at h
  refine laneCommand_frameNext h fun n v _ _ _ ha hl hb => ?_
  subst ha
  split at hb <;> cases hb
  exact .laneTrigger _ _ (hl rfl) ‹_›

theorem execLaneHalt_frameNext (h : execLaneHalt f args s = .next t) : FrameNext f (.laneHalt f args) s t := by
  unfold execLaneHalt at h
  refine laneCommand_frameNext h fun n v _ _ _ ha hl hb => ?_
  subst ha
  cases hb
  split
  · exact .reads ..
  · exact .laneHalt _ _ (hl rfl) ‹_›

theorem execInjectSet_frameNext (h : execInjectSet f args s = .next t) : FrameNext f (.injectSet f args) s t := by
  unfold execInjectSet at h
  refine portCommand_frameNext h fun v _ _ _ hb => ?_
  split at hb
  · split at hb
    · split at hb <;> cases hb
      exact .injectSet _ _ _ _ (.of_not_held ‹_›) ‹_›
    · cases hb
  · cases hb

theorem execInjectTotalsClear_frameNext (h : execInjectTotalsClear f args s = .next t) :
    FrameNext f (.injectTotalsClear f args) s t := by
  unfold execInjectTotalsClear at h
  exact laneCommand_frameNext h fun n v _ _ _ ha hl hb => by
    subst ha; cases hb; exact .injectTotalsClear _ _ (hl rfl)

theorem execSigClear_frameNext (h : execSigClear f args s = .next t) : FrameNext f (.sigClear f args) s t := by
  unfold execSigClear at h
  exact laneCommand_frameNext h fun n v _ _ _ ha hl hb => by subst ha; cases hb; exact .sigClear _ _ (hl rfl)

theorem execRouteSet_frameNext (h : execRouteSet f args s = .next t) : FrameNext f (.routeSet f args) s t := by
  unfold execRouteSet at h
  refine portCommand_frameNext h fun v _ _ _ hb => ?_
  split at hb
  · split at hb
    · split at hb
      · cases hb
      · split at hb <;> cases hb
        exact .routeSet _ _ _ _ (.of_not_held ‹_›) (not_not.mp ‹_›)
    · cases hb
  · cases hb

theorem execCheckConfig_frameNext (h : execCheckConfig f args s = .next t) :
    FrameNext f (.checkConfig f args) s t := by
  unfold execCheckConfig at h
  refine portCommand_frameNext h fun v _ _ _ hb => ?_
  split at hb
  · split at hb
    · split at hb
      · cases hb
      · split at hb <;> cases hb
        exact .checkConfig _ _ _ _ _ _ _ _ (.of_not_held ‹_›) ‹_› (not_not.mp ‹_›)
    · cases hb
  · cases hb

theorem execCheckStart_frameNext (h : execCheckStart f args s = .next t) : FrameNext f (.checkStart f args) s t := by
  unfold execCheckStart at h
  refine laneCommand_frameNext h fun n v _ _ _ ha hl hb => ?_
  subst ha
  split at hb <;> cases hb
  rename_i hg
  exact .checkStart _ _ (hl rfl) hg.1 hg.2

theorem execCheckStop_frameNext (h : execCheckStop f args s = .next t) : FrameNext f (.checkStop f args) s t := by
  unfold execCheckStop at h
  exact laneCommand_frameNext h fun n v _ _ _ ha hl hb => by subst ha; cases hb; exact .checkStop _ _ (hl rfl)

theorem execTotalsClear_frameNext (h : execTotalsClear f args s = .next t) :
    FrameNext f (.totalsClear f args) s t := by
  unfold execTotalsClear at h
  exact laneCommand_frameNext h fun n v _ _ _ ha hl hb => by subst ha; cases hb; exact .totalsClear _ _ (hl rfl)

theorem execGateConfig_frameNext (h : execGateConfig f args s = .next t) : FrameNext f (.gateConfig f args) s t := by
  unfold execGateConfig at h
  refine portCommand_frameNext h fun v _ _ _ hb => ?_
  simp only at hb
  split at hb
  · split at hb
    · cases hb
    · split at hb
      · cases hb
      · split at hb
        · cases hb
        · split at hb <;> cases hb
          exact .gateConfig _ _ _ _ (.of_not_held ‹_›) ‹_› (not_not.mp ‹_›)
  · cases hb

theorem execGateArm_frameNext (h : execGateArm f args s = .next t) : FrameNext f (.gateArm f args) s t := by
  unfold execGateArm at h
  refine laneCommand_frameNext h fun n v _ _ _ ha hl hb => ?_
  subst ha
  split at hb <;> cases hb
  exact .gateArm _ _ (hl rfl) ‹_›

theorem execGateTrigger_frameNext (h : execGateTrigger f args s = .next t) :
    FrameNext f (.gateTrigger f args) s t := by
  unfold execGateTrigger at h
  refine laneCommand_frameNext h fun n v _ _ _ ha hl hb => ?_
  subst ha
  split at hb <;> cases hb
  · exact .gateStart _ _ (hl rfl) ‹_›
  · exact .gateRetrigger _ _ (hl rfl) ‹_›

theorem execGateStop_frameNext (h : execGateStop f args s = .next t) : FrameNext f (.gateStop f args) s t := by
  unfold execGateStop at h
  exact laneCommand_frameNext h fun n v _ _ _ ha hl hb => by subst ha; cases hb; exact .gateStop _ _ (hl rfl)

theorem execResultRead_frameNext (h : execResultRead f args s = .next t) : FrameNext f (.resultRead f args) s t := by
  unfold execResultRead at h
  refine laneCommand_frameNext h fun n v _ _ _ ha hl hb => ?_
  subst ha
  simp only at hb
  split at hb
  · cases hb
    exact .reads ..
  · split at hb <;> cases hb
    exact .resultRead _ _ _ ‹_› ‹_›

theorem execResultClear_frameNext (h : execResultClear f args s = .next t) :
    FrameNext f (.resultClear f args) s t := by
  unfold execResultClear at h
  exact laneCommand_frameNext h fun n v _ _ _ ha hl hb => by subst ha; cases hb; exact .resultClear _ _ (hl rfl)

end

/-- A frame does what its command does. -/
theorem exec_frameNext {c : Instr} {f : Select} {bs : List Byte} {s t : State}
    (hc : frameBytes c = some (f, bs)) (h : exec c s = .next t) : FrameNext f c s t := by
  cases c with
  | nop g args => cases hc; exact execNop_frameNext h
  | emptyFrame g => cases hc; exact execEmptyFrame_frameNext h
  | portReset g args => cases hc; exact execPortReset_frameNext h
  | unknownCodeFrame g code args => cases hc; exact execUnknownCodeFrame_frameNext h
  | identify g args => cases hc; exact execIdentify_frameNext h
  | reservationRead g args => cases hc; exact execReservationRead_frameNext h
  | eventRead g args => cases hc; exact execEventRead_frameNext h
  | segRead g args => cases hc; exact execSegRead_frameNext h
  | reserve g args => cases hc; exact execReserve_frameNext h
  | release g args => cases hc; exact execRelease_frameNext h
  | eventClear g args => cases hc; exact execEventClear_frameNext h
  | eventEnable g args => cases hc; exact execEventEnable_frameNext h
  | holdoffSet g args => cases hc; exact execHoldoffSet_frameNext h
  | segSelect g args => cases hc; exact execSegSelect_frameNext h
  | segWrite g args => cases hc; exact execSegWrite_frameNext h
  | segClear g args => cases hc; exact execSegClear_frameNext h
  | wordSelect g args => cases hc; exact execWordSelect_frameNext h
  | wordWrite g args => cases hc; exact execWordWrite_frameNext h
  | wordRead g args => cases hc; exact execWordRead_frameNext h
  | planSet g args => cases hc; exact execPlanSet_frameNext h
  | planCheck g args => cases hc; exact execPlanCheck_frameNext h
  | planRead g args => cases hc; exact execPlanRead_frameNext h
  | laneStatus g args => cases hc; exact execLaneStatus_frameNext h
  | sigRead g args => cases hc; exact execSigRead_frameNext h
  | checkStatus g args => cases hc; exact execCheckStatus_frameNext h
  | totalsRead g args => cases hc; exact execTotalsRead_frameNext h
  | resultPeek g args => cases hc; exact execResultPeek_frameNext h
  | injectRead g args => cases hc; exact execInjectRead_frameNext h
  | gateStatus g args => cases hc; exact execGateStatus_frameNext h
  | laneStart g args => cases hc; exact execLaneStart_frameNext h
  | laneTrigger g args => cases hc; exact execLaneTrigger_frameNext h
  | laneHalt g args => cases hc; exact execLaneHalt_frameNext h
  | injectSet g args => cases hc; exact execInjectSet_frameNext h
  | injectTotalsClear g args => cases hc; exact execInjectTotalsClear_frameNext h
  | sigClear g args => cases hc; exact execSigClear_frameNext h
  | routeSet g args => cases hc; exact execRouteSet_frameNext h
  | checkConfig g args => cases hc; exact execCheckConfig_frameNext h
  | checkStart g args => cases hc; exact execCheckStart_frameNext h
  | checkStop g args => cases hc; exact execCheckStop_frameNext h
  | totalsClear g args => cases hc; exact execTotalsClear_frameNext h
  | gateConfig g args => cases hc; exact execGateConfig_frameNext h
  | gateArm g args => cases hc; exact execGateArm_frameNext h
  | gateTrigger g args => cases hc; exact execGateTrigger_frameNext h
  | gateStop g args => cases hc; exact execGateStop_frameNext h
  | resultRead g args => cases hc; exact execResultRead_frameNext h
  | resultClear g args => cases hc; exact execResultClear_frameNext h
  | deviceReset | resetNReturnsHigh | tick => cases hc
  | trigEdge | gateEdge | transmitSlot | pauseEnd | wordLimitReached | receiveWord | sliceClose | intervalExpiry
  | chainStart | holdoffExpiry => cases hc

/-! ### Lines, buses and the timebase -/

/-- What reaches the part otherwise, and what that leaves. -/
inductive LineNext : Instr → State → State → Prop where
  | deviceReset (s : State) : LineNext .deviceReset s (deviceResetState s .held)
  | resetNReturnsHigh (s : State) : LineNext .resetNReturnsHigh s { s with resetPhase := .released }
  /-- A level that a line already holds. -/
  | noEdge (c : Instr) (s : State) : LineNext c s s
  | trigLine (n : Lane) (level : Level) (s : State) :
      LineNext (.trigEdge n level) s (s.modLane n fun l => { l with trigLine := level })
  | trigger (n : Lane) (level : Level) (s : State) (state : (s.lane n).gen.state ≠ .stopped) :
      LineNext (.trigEdge n level) s (takeTrigger (s.modLane n fun l => { l with trigLine := level }) n).2
  | gateLine (n : Lane) (level : Level) (s : State) :
      LineNext (.gateEdge n level) s (s.modLane n (gateEdgeTaken level))
  | transmit (n : Lane) (s t : State) (slot : transmit s n = .ok t) : LineNext (.transmitSlot n) s t
  | pauseEnd (n : Lane) (s : State) : LineNext (.pauseEnd n) s (s.modLane n pauseEndIfDue)
  | wordLimit (n : Lane) (s : State) : LineNext (.wordLimitReached n) s (wordLimitIfReached s n)
  | receive (m : Lane) (w : Word) (s t : State) (word : deliver (.external m) w s = .ok t) :
      LineNext (.receiveWord m w) s t
  | tick (s : State) :
      LineNext .tick s ((tickTimer (tickTimer (tickTimer (tickTimer s 0) 1) 2) 3).modPorts fun v =>
        v.setHoldoff (tickHoldoff v.view.holdoff))
  | sliceClose (n : Lane) (s : State) : LineNext (.sliceClose n) s (s.modLane n sliceCloseIfDue)
  | intervalExpiry (n : Lane) (s : State) : LineNext (.intervalExpiry n) s (intervalExpiryIfDue s n)
  | chainStart (n : Lane) (s : State) : LineNext (.chainStart n) s (s.modLane n chainStartIfDue)
  | holdoffExpiry (p : Port) (s : State) :
      LineNext (.holdoffExpiry p) s (s.modPort p fun v => v.setHoldoff (holdoffExpiryIfDue v.view.holdoff))

theorem execTrigEdge_lineNext {n : Lane} {level : Level} {s t : State} (h : execTrigEdge n level s = .next t) :
    LineNext (.trigEdge n level) s t := by
  unfold execTrigEdge at h
  split at h
  · cases h
    exact .noEdge _ _
  · cases h
    split
    · rename_i hg
      exact .trigger _ _ _ (by simpa using hg.1)
    · exact .trigLine _ _ _

theorem execGateEdge_lineNext {n : Lane} {level : Level} {s t : State} (h : execGateEdge n level s = .next t) :
    LineNext (.gateEdge n level) s t := by
  unfold execGateEdge at h
  cases h
  split
  · exact .noEdge _ _
  · exact .gateLine _ _ _

/-- What no frame carries comes by a line, a bus or the timebase. -/
theorem exec_lineNext {c : Instr} {s t : State} (hc : frameBytes c = none) (h : exec c s = .next t) :
    LineNext c s t := by
  cases c with
  | deviceReset => cases h; exact .deviceReset _
  | resetNReturnsHigh => cases h; exact .resetNReturnsHigh _
  | trigEdge n level => exact execTrigEdge_lineNext h
  | gateEdge n level => exact execGateEdge_lineNext h
  | transmitSlot n => exact .transmit _ _ _ (walkOutcome_next h)
  | receiveWord m w => exact .receive _ _ _ _ (walkOutcome_next h)
  | pauseEnd n => cases h; exact .pauseEnd _ _
  | wordLimitReached n => cases h; exact .wordLimit _ _
  | tick => exact Host.Outcome.next.inj (h : execTick s = .next t) ▸ .tick s
  | sliceClose n => cases h; exact .sliceClose _ _
  | intervalExpiry n => cases h; exact .intervalExpiry _ _
  | chainStart n => cases h; exact .chainStart _ _
  | holdoffExpiry p => cases h; exact .holdoffExpiry _ _
  | _ => cases hc

/-- All that a command can do. -/
theorem exec_cases {c : Instr} {s t : State} (h : exec c s = .next t) :
    (∃ f bs, frameBytes c = some (f, bs) ∧ FrameNext f c s t) ∨ LineNext c s t := by
  cases hc : frameBytes c with
  | some fb => exact .inl ⟨fb.1, fb.2, rfl, exec_frameNext hc h⟩
  | none => exact .inr (exec_lineNext hc h)

end Sys2Proof.Machine
end

section
/-!
PROOF. What slots, words, ticks and closes do to the generators, injection units and checkers: what interval timing
leaves alone (`IntervalKept`), how a word moves a checker (`CheckerMove`) and how a slot moves a generator
(`GenMove`). What they leave of the rest of the state is `SlotStep`.
-/

namespace Sys2Proof.Machine

/-! ### What a lane keeps -/

/-- A lane whose generator, injection unit, transmit signature and transmit bus stand. -/
structure GenKept (l k : LaneState) : Prop where
  gen : k.gen = l.gen
  inject : k.inject = l.inject
  sig : k.sig = l.sig
  txBus : k.txBus = l.txBus

/-- A lane whose generator side stands, and its checker: all that interval timing does. -/
structure IntervalKept (l k : LaneState) : Prop extends GenKept l k where
  checker : k.checker = l.checker

theorem GenKept.refl (l : LaneState) : GenKept l l := ⟨rfl, rfl, rfl, rfl⟩

theorem GenKept.trans {a b c : LaneState} (h : GenKept a b) (g : GenKept b c) : GenKept a c :=
  ⟨g.gen.trans h.gen, g.inject.trans h.inject, g.sig.trans h.sig, g.txBus.trans h.txBus⟩

theorem IntervalKept.refl (l : LaneState) : IntervalKept l l := ⟨.refl l, rfl⟩

theorem IntervalKept.trans {a b c : LaneState} (h : IntervalKept a b) (g : IntervalKept b c) : IntervalKept a c :=
  ⟨h.toGenKept.trans g.toGenKept, g.checker.trans h.checker⟩

/-- A lane of which at most the accumulators, the timer, the ring, the route, the plan and the lines differ. -/
theorem IntervalKept.of_eq {l k : LaneState} (hg : k.gen = l.gen) (hi : k.inject = l.inject) (hs : k.sig = l.sig)
    (ht : k.txBus = l.txBus) (hc : k.checker = l.checker) : IntervalKept l k := ⟨⟨hg, hi, hs, ht⟩, hc⟩

/-- Every lane keeps its generator side. -/
structure GenStep (s t : State) : Prop where
  lane : ∀ m, GenKept (s.lane m) (t.lane m)

/-- Every lane keeps its generator side and its checker. -/
structure IntervalStep (s t : State) : Prop where
  lane : ∀ m, IntervalKept (s.lane m) (t.lane m)

theorem IntervalStep.refl (s : State) : IntervalStep s s := ⟨fun _ => .refl _⟩

theorem IntervalStep.trans {a b c : State} (h : IntervalStep a b) (g : IntervalStep b c) : IntervalStep a c :=
  ⟨fun m => (h.lane m).trans (g.lane m)⟩

theorem GenStep.trans {a b c : State} (h : GenStep a b) (g : GenStep b c) : GenStep a c :=
  ⟨fun m => (h.lane m).trans (g.lane m)⟩

theorem IntervalStep.gens {s t : State} (h : IntervalStep s t) : GenStep s t := ⟨fun m => (h.lane m).toGenKept⟩

theorem IntervalStep.raise (s : State) (e : Event) : IntervalStep s (s.raise e) := ⟨fun _ => .refl _⟩

theorem IntervalStep.modLane (s : State) (n : Lane) {f : LaneState → LaneState}
    (h : IntervalKept (s.lane n) (f (s.lane n))) : IntervalStep s (s.modLane n f) := by
  refine ⟨fun m => ?_⟩
  rw [State.modLane_lane]
  split
  · subst m; exact h
  · exact .refl _

theorem IntervalStep.setLane (s : State) (n : Lane) {l : LaneState} (h : IntervalKept (s.lane n) l) :
    IntervalStep s (s.setLane n l) :=
  IntervalStep.modLane s n (f := fun _ => l) h

theorem GenStep.modLane (s : State) (n : Lane) {f : LaneState → LaneState}
    (h : GenKept (s.lane n) (f (s.lane n))) : GenStep s (s.modLane n f) := by
  refine ⟨fun m => ?_⟩
  rw [State.modLane_lane]
  split
  · subst m; exact h
  · exact .refl _

theorem IntervalStep.setRun (s : State) (n : Lane) (t : RunTotals × Bool) : IntervalStep s (setRun s n t) := by
  refine ⟨fun m => ?_⟩
  rw [setRun_lane]
  split
  · subst m; exact .of_eq rfl rfl rfl rfl rfl
  · exact .refl _

theorem IntervalStep.setInterval (s : State) (n : Lane) (t : IntervalAcc × Bool) :
    IntervalStep s (setInterval s n t) := by
  refine ⟨fun m => ?_⟩
  rw [setInterval_lane]
  split
  · subst m; exact .of_eq rfl rfl rfl rfl rfl
  · exact .refl _

/-! ### Interval timing -/

theorem IntervalKept.startInterval (l : LaneState) : IntervalKept l (startInterval l) := .of_eq rfl rfl rfl rfl rfl

theorem IntervalKept.classifySlice (l : LaneState) : IntervalKept l (classifySlice l) := .of_eq rfl rfl rfl rfl rfl

theorem IntervalKept.finishClose (cause : CloseCause) (made : Bool) (l : LaneState) :
    IntervalKept l (finishClose cause made l) := .of_eq rfl rfl rfl rfl rfl

theorem IntervalKept.setTimer (l : LaneState) (st : TimerState) : IntervalKept l (l.setTimer st) :=
  .of_eq rfl rfl rfl rfl rfl

theorem IntervalKept.modAcc (l : LaneState) (f : Accumulators → Accumulators) : IntervalKept l (l.modAcc f) :=
  .of_eq rfl rfl rfl rfl rfl

theorem IntervalKept.modProgress (l : LaneState) (f : IntervalProgress → IntervalProgress) :
    IntervalKept l (l.modProgress f) := .of_eq rfl rfl rfl rfl rfl

theorem IntervalKept.classifyOpenSlice (l : LaneState) : IntervalKept l (classifyOpenSlice l) := by
  unfold Machine.classifyOpenSlice
  split
  · exact .refl _
  · exact .classifySlice _

theorem IntervalKept.sliceCloseIfDue (l : LaneState) : IntervalKept l (sliceCloseIfDue l) := by
  unfold Machine.sliceCloseIfDue
  split
  · exact .of_eq rfl rfl rfl rfl rfl
  · exact .refl _

theorem IntervalKept.chainStartIfDue (l : LaneState) : IntervalKept l (chainStartIfDue l) := by
  unfold Machine.chainStartIfDue
  split
  · exact .startInterval _
  · exact .refl _

theorem IntervalKept.armTimer (l : LaneState) : IntervalKept l (armTimer l) := by
  unfold Machine.armTimer
  split
  · exact .startInterval _
  · exact .setTimer ..

theorem IntervalKept.gateEdgeTaken (level : Level) (l : LaneState) : IntervalKept l (gateEdgeTaken level l) := by
  unfold Machine.gateEdgeTaken
  simp only
  split <;> exact .of_eq rfl rfl rfl rfl rfl

theorem IntervalKept.takeOffer (n : Lane) (sender : Option Port) (l : LaneState) :
    IntervalKept l (takeOffer n sender l) := by
  rcases takeOffer_cases n sender l with h | ⟨-, -, h⟩ <;> rw [h]
  · exact .refl _
  · exact .of_eq rfl rfl rfl rfl rfl

theorem IntervalStep.offerClose (s : State) (n : Lane) (cause : CloseCause) (sender : Option Port) :
    IntervalStep s (offerClose s n cause sender) := by
  refine ⟨fun m => ?_⟩
  rw [offerClose_lane]
  split
  · exact .takeOffer ..
  · exact .refl _

theorem IntervalStep.pushRecord (s : State) (n : Lane) (r : IntervalRecord) : IntervalStep s (pushRecord s n r) := by
  have hring : ∀ ring, IntervalStep s (s.modLane n fun l => { l with ring := ring }) := fun ring =>
    .modLane s n (f := fun l => { l with ring := ring }) (.of_eq rfl rfl rfl rfl rfl)
  simp only [Machine.pushRecord]
  split
  · split
    · exact (hring _).trans ⟨fun _ => .refl _⟩
    · exact hring _
  · exact hring _

theorem IntervalStep.closeWithRecord (s : State) (n : Lane) (cause : CloseCause) :
    IntervalStep s (closeWithRecord s n cause) := by
  simp only [Machine.closeWithRecord]
  refine IntervalStep.trans ?_ (.modLane _ n (.finishClose ..))
  have h : IntervalStep s ((Machine.pushRecord (s.setLane n (Machine.classifyOpenSlice (s.lane n))) n
      (buildRecord n cause (Machine.classifyOpenSlice (s.lane n)))).raise (.intervalClosed n)) :=
    ((IntervalStep.setLane s n (.classifyOpenSlice _)).trans (.pushRecord ..)).trans (.raise ..)
  split
  · exact h.trans (.raise ..)
  · exact h

theorem IntervalStep.closeInterval (s : State) (n : Lane) (cause : CloseCause) (sender : Option Port) :
    IntervalStep s (closeInterval s n cause sender) := by
  unfold Machine.closeInterval
  refine IntervalStep.trans ?_ (.offerClose ..)
  split
  · exact .closeWithRecord ..
  · exact .modLane s n (.finishClose ..)

theorem IntervalStep.closeAndStop (s : State) (n : Lane) (cause : CloseCause) :
    IntervalStep s (closeAndStop s n cause) :=
  (IntervalStep.closeInterval s n cause _).trans (.modLane _ n (.setTimer ..))

theorem IntervalStep.closeAndRestart (s : State) (n : Lane) (cause : CloseCause) (sender : Option Port) :
    IntervalStep s (closeAndRestart s n cause sender) :=
  (IntervalStep.closeInterval s n cause _).trans (.modLane _ n (.startInterval _))

theorem IntervalStep.intervalExpiryIfDue (s : State) (n : Lane) : IntervalStep s (intervalExpiryIfDue s n) := by
  simp only [Machine.intervalExpiryIfDue]
  split
  · split
    · exact .closeAndStop ..
    · exact .closeAndRestart ..
  · exact .refl _

theorem IntervalStep.countUnit (s : State) (n : Lane) : IntervalStep s (countUnit s n) := by
  refine IntervalStep.trans (.modLane s n ?_) (.intervalExpiryIfDue _ n)
  exact (IntervalKept.modProgress ..).trans (.sliceCloseIfDue _)

theorem IntervalStep.tickTimer (s : State) (n : Lane) : IntervalStep s (tickTimer s n) := by
  unfold Machine.tickTimer
  split
  · exact .countUnit s n
  · exact .refl _

theorem IntervalStep.stopTimer (s : State) (n : Lane) : IntervalStep s (stopTimer s n) := by
  unfold Machine.stopTimer
  split
  · exact .refl _
  · exact .modLane s n (.setTimer ..)
  · exact .closeAndStop ..

theorem SlotStep.stopTimer (s : State) (n : Lane) : SlotStep s (stopTimer s n) := by
  unfold Machine.stopTimer
  split
  · exact .refl _
  · exact .modLane s n (.setTimer ..)
  · exact .closeAndStop ..

theorem IntervalStep.startOwed (s : State) (p : Port) : IntervalStep s (s.startOwed p) := by
  refine ⟨fun m => ?_⟩
  rw [State.startOwed_lane]
  rcases startOwedAt_cases p (s.lane m) with h | ⟨-, -, -, h⟩ <;> rw [h]
  · exact .refl _
  · exact .startInterval _

/-- A tick at every interval timer. -/
theorem intervalStep_ticks (s : State) : IntervalStep s (tickTimer (tickTimer (tickTimer (tickTimer s 0) 1) 2) 3) :=
  (((IntervalStep.tickTimer s 0).trans (.tickTimer _ 1)).trans (.tickTimer _ 2)).trans (.tickTimer _ 3)

theorem slotStep_ticks (s : State) : SlotStep s (tickTimer (tickTimer (tickTimer (tickTimer s 0) 1) 2) 3) :=
  (((SlotStep.tickTimer s 0).trans (.tickTimer _ 1)).trans (.tickTimer _ 2)).trans (.tickTimer _ 3)

/-! ### What a word does to its checker -/

/-- What a word's arrival can leave of checker n (R89 to R97). -/
inductive CheckerMove (s : State) (n : Lane) : Checker → Prop where
  | stays : CheckerMove s n (s.lane n).checker
  | anchored (sg : Segment) (state : (s.lane n).checker.state = .search) (mode : (s.lane n).checker.mode = .sequence)
      (record : s.record (checkerPlan s n).anchor = some sg) :
      CheckerMove s n (enterVerify (s.lane n).checker
        (advanceReference (checkerPlan s n) sg (anchorPos (checkerPlan s n))) (s.lane n).checker.prbs)
  | synchronised (st : BitVec 32) (state : (s.lane n).checker.state = .search)
      (mode : (s.lane n).checker.mode = .freeRun) :
      CheckerMove s n (enterVerify (s.lane n).checker (passStart (checkerPlan s n).first 1 0) st)
  | passed (x : Expected) (reference : expected s n = .ok x)
      (state : (s.lane n).checker.state = .verify ∨ (s.lane n).checker.state = .locked) : CheckerMove s n x.advanced
  | verified (x : Expected) (reference : expected s n = .ok x) (state : (s.lane n).checker.state = .verify)
      (below : x.advanced.progress.toNat + 1 < x.advanced.config.verify.toNat) :
      CheckerMove s n { x.advanced with progress := x.advanced.progress + 1 }
  | gained (x : Expected) (reference : expected s n = .ok x) (state : (s.lane n).checker.state = .verify) :
      CheckerMove s n { x.advanced with state := .locked, progress := 0, slip := 0 }
  | compared (x : Expected) (e : Nat) (slip : BitVec 6) (reference : expected s n = .ok x)
      (state : (s.lane n).checker.state = .locked) (moved : nextSlip (s.lane n).checker e = some slip) :
      CheckerMove s n { x.advanced with slip := slip }
  | lost (state : (s.lane n).checker.state = .verify ∨ (s.lane n).checker.state = .locked) :
      CheckerMove s n (discardReference (s.lane n).checker .search)

/-- A lane whose checker alone changes keeps its generator side. -/
theorem GenKept.modChecker (l : LaneState) (f : Checker → Checker) : GenKept l (l.modChecker f) := ⟨rfl, rfl, rfl, rfl⟩

/-- What a word does at checker n: a move there, the other checkers as they were, and no generator side touched. -/
structure WordStep (n : Lane) (s t : State) : Prop where
  gens : GenStep s t
  others : ∀ m, m ≠ n → (t.lane m).checker = (s.lane m).checker
  move : CheckerMove s n (t.lane n).checker

theorem WordStep.refl (n : Lane) (s : State) : WordStep n s s := ⟨⟨fun _ => .refl _⟩, fun _ _ => rfl, .stays⟩

/-- A word that moves the checker and nothing else. -/
theorem WordStep.modChecker {s : State} {n : Lane} {f : Checker → Checker}
    (h : CheckerMove s n (f (s.lane n).checker)) : WordStep n s (s.modLane n fun l => l.modChecker f) where
  gens := .modLane s n (.modChecker ..)
  others m hm := by simp [hm]
  move := by simpa [LaneState.modChecker] using h

/-- Interval timing after a word leaves what the word did. -/
theorem WordStep.then {s t u : State} {n : Lane} (h : WordStep n s t) (g : IntervalStep t u) : WordStep n s u where
  gens := h.gens.trans g.gens
  others m hm := (g.lane m).checker.trans (h.others m hm)
  move := (g.lane n).checker ▸ h.move

/-- Interval timing before the checker moves. -/
theorem WordStep.after {s t : State} {n : Lane} (g : IntervalStep s t) {f : Checker → Checker}
    (h : CheckerMove s n (f (s.lane n).checker)) : WordStep n s (t.modLane n fun l => l.modChecker f) where
  gens := g.gens.trans (.modLane t n (.modChecker ..))
  others m hm := by simp [hm, (g.lane m).checker]
  move := by simpa [LaneState.modChecker, (g.lane n).checker] using h

theorem definedSegment_ok {s : State} {i : Fin 64} {sg : Segment} (h : definedSegment s i = .ok sg) :
    s.record i = some sg := by
  unfold definedSegment at h
  split at h <;> cases h
  assumption

theorem WordStep.searchWord {s t : State} {n : Lane} {w : Word} (hs : (s.lane n).checker.state = .search)
    (h : searchWord s n w = .ok t) : WordStep n s t := by
  simp only [Machine.searchWord] at h
  split at h
  · split at h
    · cases h
    · rename_i hm _ sg hsg
      cases h
      split
      · exact .modChecker (.anchored sg hs hm (definedSegment_ok hsg))
      · exact .refl ..
  · split at h
    · cases h
    · split at h <;> cases h
      · exact .refl ..
      · exact .modChecker (.synchronised _ hs ‹_›)

theorem WordStep.gainLock {s : State} {n : Lane} {x : Expected} (hs : (s.lane n).checker.state = .verify)
    (h : expected s n = .ok x) : WordStep n s (gainLock s n x.advanced) := by
  simp only [Machine.gainLock]
  have hc : WordStep n s (s.modLane n fun l => l.modChecker fun _ =>
      { x.advanced with state := .locked, progress := 0, slip := 0 }) := .modChecker (.gained x h hs)
  refine WordStep.then ?_ (.raise ..)
  refine WordStep.then (hc.then (.setRun ..)) (.modLane _ n ?_)
  split
  · exact .modAcc ..
  · exact .refl _

theorem WordStep.verifyWord {s : State} {n : Lane} {x : Expected} (w : Word)
    (hs : (s.lane n).checker.state = .verify) (h : expected s n = .ok x) : WordStep n s (verifyWord s n x w) := by
  unfold Machine.verifyWord
  split
  · exact .modChecker (.passed x h (.inl hs))
  · split
    · split
      · exact .modChecker (.verified x h hs ‹_›)
      · exact .gainLock hs h
    · exact .modChecker (.lost (.inl hs))

/-- The counts of a compared word, and its unit, move no checker. -/
theorem IntervalStep.accumulate (s : State) (n : Lane) (c e : Nat) :
    IntervalStep s (accumulatedUnit (accumulateInterval (accumulateRun s n c e) n c e) n) := by
  have hr : IntervalStep s (accumulateRun s n c e) := .setRun ..
  have hi : ∀ u, IntervalStep u (accumulateInterval u n c e) := fun u => by
    unfold accumulateInterval
    split
    · exact .setInterval ..
    · exact .refl _
  have hu : ∀ u, IntervalStep u (accumulatedUnit u n) := fun u => by
    unfold accumulatedUnit
    split
    · exact .countUnit ..
    · exact .refl _
  exact (hr.trans (hi _)).trans (hu _)

theorem WordStep.loseLock {s t : State} {n : Lane} (hs : (s.lane n).checker.state = .locked) (g : IntervalStep s t) :
    WordStep n s (loseLock t n) := by
  simp only [Machine.loseLock]
  have hc : WordStep n s (t.modLane n fun l => l.modChecker fun c => discardReference c .search) :=
    .after g (.lost (.inr hs))
  refine WordStep.then ?_ (.raise ..)
  refine WordStep.then (hc.then (.setRun ..)) (.modLane _ n ?_)
  split
  · exact (IntervalKept.modAcc ..).trans (.modProgress ..)
  · exact .refl _

theorem WordStep.lockedWord {s : State} {n : Lane} {x : Expected} (w : Word)
    (hs : (s.lane n).checker.state = .locked) (h : expected s n = .ok x) : WordStep n s (lockedWord s n x w) := by
  unfold Machine.lockedWord
  split
  · exact .modChecker (.passed x h (.inr hs))
  · rename_i ref mask _
    have g := IntervalStep.accumulate s n (ones mask) (erroredBits w ref mask)
    simp only [moveSlip]
    split
    · exact .loseLock hs g
    · rename_i slip hslip
      exact .after g (.compared x _ slip h hs ((g.lane n).checker ▸ hslip))

/-- All that a word at one checker can do to the walkers. -/
theorem WordStep.receiveAt {s t : State} {n : Lane} {w : Word} (h : receiveAt s n w = .ok t) : WordStep n s t := by
  unfold Machine.receiveAt at h
  split at h
  · cases h
    exact .refl ..
  · exact .searchWord ‹_› h
  · split at h <;> cases h
    exact .verifyWord w ‹_› ‹_›
  · split at h <;> cases h
    exact .lockedWord w ‹_› ‹_›

theorem WordStep.deliverTo {src : Source} {w : Word} {s t : State} {n : Lane} (h : deliverTo src w s n = .ok t) :
    WordStep n s t := by
  unfold Machine.deliverTo at h
  split at h
  · exact .receiveAt h
  · cases h
    exact .refl ..

/-- A property of states that a word at one checker keeps is kept by the word's delivery. -/
theorem deliver_keeps {P : State → Prop} {src : Source} {w : Word} {s t : State}
    (keeps : ∀ n u v, SlotStep u v → WordStep n u v → P u → P v) (h : deliver src w s = .ok t) (hs : P s) : P t := by
  obtain ⟨s0, s1, s2, h0, h1, h2, h3⟩ := deliver_ok h
  have step : ∀ {u v : State} {n : Lane}, Machine.deliverTo src w u n = .ok v → P u → P v := fun hv =>
    keeps _ _ _ (.deliverTo hv) (.deliverTo hv)
  exact step h3 (step h2 (step h1 (step h0 hs)))

theorem GenStep.deliver {src : Source} {w : Word} {s t : State} (h : deliver src w s = .ok t) : GenStep s t :=
  deliver_keeps (P := GenStep s) (fun _ _ _ _ hw hg => hg.trans hw.gens) h ⟨fun _ => .refl _⟩

end Sys2Proof.Machine
end

section
/-!
PROOF. What triggers and transmit slots do to a generator (`GenMove`) and its injection unit, in one composable form
(`GenSlot`).
-/

namespace Sys2Proof.Machine

/-- A reach set that a walk of a plan cannot leave: it holds segment first and, in SEQUENCE mode, is closed under next
links (R26). -/
structure Closed (record : Fin 64 → Option Segment) (pl : Plan) (reach : BitVec 64) : Prop where
  first : reach.getLsbD pl.first.val = true
  next : pl.mode = .sequence → ∀ i j : Fin 64, reach.getLsbD i.val = true → Links record i j →
    reach.getLsbD j.val = true

/-- A generator inside a run stands in a reach set (R35). -/
def StandsIn (reach : BitVec 64) (g : Generator) : Prop := inRun g = true → reach.getLsbD g.pos.seg.val = true

/-- A generator that does not leave STOPPED, nor the reach set of its plan. -/
structure GenMove (record : Fin 64 → Option Segment) (pl : Plan) (g k : Generator) : Prop where
  active : k.state ≠ .stopped → g.state ≠ .stopped
  within : ∀ reach, Closed record pl reach → StandsIn reach g → StandsIn reach k

theorem GenMove.refl (record : Fin 64 → Option Segment) (pl : Plan) (g : Generator) : GenMove record pl g g :=
  ⟨id, fun _ _ => id⟩

theorem GenMove.trans {record : Fin 64 → Option Segment} {pl : Plan} {a b c : Generator} (h : GenMove record pl a b)
    (g : GenMove record pl b c) : GenMove record pl a c :=
  ⟨h.active ∘ g.active, fun reach hr => g.within reach hr ∘ h.within reach hr⟩

/-- A generator put at the plan's first segment. -/
theorem GenMove.of_first {record : Fin 64 → Option Segment} {pl : Plan} {g k : Generator}
    (active : g.state ≠ .stopped) (first : k.pos.seg = pl.first) : GenMove record pl g k :=
  ⟨fun _ => active, fun _ hr _ _ => first ▸ hr.first⟩

/-- A generator whose run has ended. -/
theorem GenMove.of_notInRun {record : Fin 64 → Option Segment} {pl : Plan} {g k : Generator}
    (active : g.state ≠ .stopped) (ended : inRun k = false) : GenMove record pl g k :=
  ⟨fun _ => active, fun _ _ _ hk => by simp [ended] at hk⟩

/-- A generator that stays in its segment and in or out of its run. -/
theorem GenMove.of_same {record : Fin 64 → Option Segment} {pl : Plan} {g k : Generator}
    (state : k.state = g.state) (seg : k.pos.seg = g.pos.seg) : GenMove record pl g k :=
  ⟨by rw [state]; exact id, fun _ _ h hk => by rw [seg]; exact h (by simpa [inRun, state] using hk)⟩

theorem active_of_inRun {g : Generator} (h : inRun g = true) : g.state ≠ .stopped := by
  intro hs
  simp [inRun, hs] at h

/-- What a trigger or the generator's side of a slot does on lane n: no other generator side and no checker is touched,
the generator stays within its reach set, and the injection unit in its range. -/
structure GenSlot (n : Lane) (s t : State) : Prop extends SlotStep s t where
  others : ∀ m, m ≠ n → GenKept (s.lane m) (t.lane m)
  checkers : ∀ m, (t.lane m).checker = (s.lane m).checker
  move : GenMove s.record (s.lane n).plan (s.lane n).gen (t.lane n).gen
  injects : InjectInRange (s.lane n).inject → InjectInRange (t.lane n).inject

theorem GenSlot.refl (n : Lane) (s : State) : GenSlot n s s :=
  ⟨.refl s, fun _ _ => .refl _, fun _ => rfl, .refl .., id⟩

theorem GenSlot.trans {n : Lane} {a b c : State} (h : GenSlot n a b) (g : GenSlot n b c) : GenSlot n a c where
  toSlotStep := h.toSlotStep.trans g.toSlotStep
  others m hm := (h.others m hm).trans (g.others m hm)
  checkers m := (g.checkers m).trans (h.checkers m)
  move := by
    have hr : b.record = a.record := funext h.toSlotStep.record
    have hm := g.move
    rw [(h.lane n).plan, hr] at hm
    exact h.move.trans hm
  injects := g.injects ∘ h.injects

theorem GenSlot.raise (n : Lane) (s : State) {e : Event} (h : e ≠ .restarted) : GenSlot n s (s.raise e) :=
  ⟨.raise s h, fun _ _ => .refl _, fun _ => rfl, .refl .., id⟩

theorem GenSlot.modLane (s : State) (n : Lane) {f : LaneState → LaneState} (kept : LaneKept (s.lane n) (f (s.lane n)))
    (checker : (f (s.lane n)).checker = (s.lane n).checker)
    (move : GenMove s.record (s.lane n).plan (s.lane n).gen (f (s.lane n)).gen)
    (injects : InjectInRange (s.lane n).inject → InjectInRange (f (s.lane n)).inject) :
    GenSlot n s (s.modLane n f) where
  toSlotStep := .modLane s n kept
  others m hm := by simp only [State.modLane_lane, hm, if_false]; exact .refl _
  checkers m := by
    rw [State.modLane_lane]
    split
    · subst m; exact checker
    · rfl
  move := by simpa using move
  injects := by simpa using injects

/-- A change of the generator alone. -/
theorem GenSlot.modGen (s : State) (n : Lane) {f : LaneState → Generator → Generator}
    (move : GenMove s.record (s.lane n).plan (s.lane n).gen (f (s.lane n) (s.lane n).gen)) :
    GenSlot n s (s.modLane n fun l => l.modGen (f l)) :=
  .modLane s n (.modGen ..) rfl move id

/-! ### The injection unit -/

/-- An injection unit with its period count at 0 stays in range (R65). -/
theorem InjectInRange.restart {u : InjectUnit} (h : InjectInRange u) : InjectInRange { u with periodCount := 0 } := by
  unfold InjectInRange at *
  cases hs : u.setting <;> simp_all
  omega

theorem InjectInRange.congr {u v : InjectUnit} (hs : v.setting = u.setting) (hp : v.periodCount = u.periodCount)
    (h : InjectInRange u) : InjectInRange v := by
  unfold InjectInRange at *
  rw [hs, hp]
  exact h

theorem InjectInRange.addInjected {u : InjectUnit} (h : InjectInRange u) (k : Nat) :
    InjectInRange (addInjected u k) := by
  unfold Machine.addInjected
  split
  · exact h
  · exact h.congr rfl rfl

/-- A word through an injection unit leaves it in range (R62 to R65). -/
theorem InjectInRange.eligible {u : InjectUnit} (h : InjectInRange u) : InjectInRange (injectEligible u).2 := by
  unfold injectEligible
  cases hs : u.setting with
  | off => exact h
  | single bit =>
    simp only [InjectInRange, hs] at h ⊢
    exact h
  | burst bit len =>
    simp only [InjectInRange, hs] at h ⊢
    exact h.1
  | periodic bit period =>
    simp only [InjectInRange, hs] at h
    simp only
    split
    · simp only [InjectInRange]
      exact ⟨h.1, by simp; omega⟩
    · simp only [InjectInRange, BitVec.toNat_add]
      have := period.isLt
      exact ⟨h.1, by simp; omega⟩

/-! ### Triggers -/

theorem GenSlot.beginRun (s : State) (n : Lane) (h : (s.lane n).gen.state ≠ .stopped) :
    GenSlot n s (beginRun s n) :=
  .modLane s n (f := fun _ => _) ⟨rfl, rfl, rfl, rfl, rfl, rfl⟩ rfl (.of_first h rfl) fun hi => hi.restart

theorem GenSlot.takeTrigger (s : State) (n : Lane) (h : (s.lane n).gen.state ≠ .stopped) :
    GenSlot n s (takeTrigger s n).2 := by
  unfold Machine.takeTrigger
  split
  · exact .beginRun s n h
  · split
    · exact .refl ..
    · exact .modGen s n (f := fun _ g => { g with pendingTrigger := true }) (.of_same rfl rfl)

/-! ### Run ends and pauses -/

theorem GenSlot.wordLimitIfReached (s : State) (n : Lane) : GenSlot n s (wordLimitIfReached s n) := by
  unfold Machine.wordLimitIfReached
  split
  · rename_i h
    have hr : inRun (s.lane n).gen = true := by
      simp only [limitReached, Bool.and_eq_true] at h
      exact h.1.1
    exact (GenSlot.modGen s n (f := fun l g => { armAfterRun l.plan g with pendingTrigger := false })
      (.of_notInRun (active_of_inRun hr) rfl)).trans (.raise n _ (by simp))
  · exact .refl ..

theorem GenSlot.pauseEnd (s : State) (n : Lane) : GenSlot n s (s.modLane n pauseEndIfDue) := by
  refine .modLane s n (.pauseEndIfDue _) ?_ ?_ ?_ <;> unfold pauseEndIfDue <;> split
  · rfl
  · rfl
  · rename_i h
    have hp : (s.lane n).gen.state = .pausing := by
      simp only [Bool.and_eq_true, beq_iff_eq] at h
      exact h.1
    exact ⟨fun _ => by simp [hp], fun _ _ hin _ => hin (by simp [inRun, hp])⟩
  · exact .refl ..
  · exact id
  · exact id

theorem GenSlot.endPass (s : State) (n : Lane) (h : (s.lane n).gen.state ≠ .stopped) : GenSlot n s (endPass s n) := by
  have hl : GenSlot n s (s.modLane n latchPass) :=
    .modLane s n ⟨rfl, rfl, rfl, rfl, rfl, rfl⟩ rfl (.of_same rfl rfl) id
  have ha : ((s.modLane n latchPass).lane n).gen.state ≠ .stopped := by simpa [latchPass] using h
  simp only [Machine.endPass, endRunByPasses]
  refine hl.trans ?_
  split
  · exact .modLane _ n (.modGen ..) rfl (.of_first ha rfl) id
  · split
    · exact (GenSlot.modGen _ n
        (f := fun _ g => { g with pendingTrigger := false, runsCompleted := g.runsCompleted + 1 })
        (.of_same rfl rfl)).trans (.beginRun _ n (by simpa [LaneState.modGen] using ha))
    · exact (GenSlot.modGen _ n (f := fun l => armAfterRun l.plan) (.of_notInRun ha rfl)).trans (.raise n _ (by simp))

/-! ### One slot -/

/-- A step onward is one of R46's. -/
theorem advance_onward {sg : Segment} {pos q : Pos} (h : advance sg pos = .onward q) : Onward sg pos q := by
  unfold advance at h
  split at h
  · cases h
    exact .inl ⟨‹_›, rfl⟩
  · split at h
    · cases h
      exact .inr (.inl ⟨by omega, ‹_›, rfl⟩)
    · split at h <;> cases h
      exact .inr (.inr ⟨by omega, by omega, _, ‹_›, rfl⟩)

/-- A step onward stays in the segment or follows its next link. -/
theorem Onward.seg {sg : Segment} {pos q : Pos} (h : Onward sg pos q) : q.seg = pos.seg ∨ sg.next = some q.seg := by
  rcases h with ⟨-, rfl⟩ | ⟨-, -, rfl⟩ | ⟨-, -, t, ht, rfl⟩
  · exact .inl rfl
  · exact .inl rfl
  · exact .inr ht

theorem patternWord_step {s : State} {n : Lane} {x : PatternWord} {q : Pos} (h : patternWord s n = .ok x)
    (hq : x.step = some (.onward q)) :
    q.seg = (s.lane n).gen.pos.seg ∨
      ((s.lane n).plan.mode = .sequence ∧ Links s.record (s.lane n).gen.pos.seg q.seg) := by
  unfold patternWord at h
  simp only at h
  split at h
  · split at h <;> cases h
    cases hq
  · split at h <;> cases h
    rename_i hm _ sg hsg
    rcases (advance_onward (Option.some.inj hq)).seg with hs | hs
    · exact .inl hs
    · exact .inr ⟨hm, sg, definedSegment_ok hsg, hs⟩

theorem IntervalKept.creditLane (g : Lane) (k : Nat) (l : LaneState) : IntervalKept l (creditLane g k l) := by
  unfold Machine.creditLane
  split
  · exact .modAcc ..
  · exact .refl _

theorem GenSlot.credit (s : State) (n : Lane) (k : Nat) : GenSlot n s (credit s n k) := by
  have hk : ∀ m, IntervalKept (s.lane m) ((Machine.credit s n k).lane m) := fun m => by
    rw [credit_lane]
    exact .creditLane ..
  refine ⟨.credit .., fun m _ => (hk m).toGenKept, fun m => (hk m).checker, ?_, ?_⟩
  · rw [(hk n).gen]
    exact .refl ..
  · rw [(hk n).inject]
    exact id

theorem GenSlot.setInject (s : State) (n : Lane) {u : InjectUnit}
    (h : InjectInRange (s.lane n).inject → InjectInRange u) :
    GenSlot n s (s.modLane n fun l => { l with inject := u }) :=
  .modLane s n ⟨rfl, rfl, rfl, rfl, rfl, rfl⟩ rfl (.refl ..) h

theorem GenSlot.inject (s : State) (n : Lane) (w : Word) (counted : Bool) :
    GenSlot n s (inject s n w counted).2 := by
  unfold Machine.inject
  split
  · exact (GenSlot.setInject s n fun h => h.eligible.addInjected _).trans (.credit ..)
  · exact .refl ..

theorem GenSlot.countSlot (s : State) (n : Lane) : GenSlot n s (countSlot s n) :=
  .modGen s n (f := fun _ g => { g with wordsEmitted := g.wordsEmitted + 1 }) (.of_same rfl rfl)

theorem GenSlot.afterPatternWord (s : State) (n : Lane) (step : Option Advance)
    (running : (s.lane n).gen.state = .running)
    (onward : ∀ q, step = some (.onward q) → q.seg = (s.lane n).gen.pos.seg ∨
      ((s.lane n).plan.mode = .sequence ∧ Links s.record (s.lane n).gen.pos.seg q.seg)) :
    GenSlot n s (afterPatternWord s n step) := by
  unfold Machine.afterPatternWord
  split
  · exact .wordLimitIfReached s n
  · split
    · exact .refl ..
    · rename_i q
      refine .modGen s n (f := fun _ g => { g with pos := q }) ⟨fun _ => by simp [running], fun reach hr hin _ => ?_⟩
      have hg : reach.getLsbD (s.lane n).gen.pos.seg.val = true := hin (by simp [inRun, running])
      rcases onward q rfl with hq | ⟨hm, hq⟩
      · exact hq ▸ hg
      · exact hr.next hm _ _ hg hq
    · exact .endPass s n (by simp [running])

theorem GenSlot.pausingSlot (s : State) (n : Lane) : GenSlot n s (pausingSlot s n) := by
  unfold Machine.pausingSlot
  refine (GenSlot.trans ?_ (.wordLimitIfReached _ n)).trans (.pauseEnd _ n)
  exact (GenSlot.countSlot s n).trans (.modGen _ n
    (f := fun _ g => { g with pos := { g.pos with pause := BitVec.ofNat 16 (g.pos.pause.toNat - 1) } })
    (.of_same rfl rfl))

/-- What the injection leaves of lane n but its injection unit and accumulators. -/
theorem inject_gen (s : State) (n : Lane) (w : Word) (counted : Bool) :
    ((inject s n w counted).2.lane n).gen = (s.lane n).gen := by
  unfold inject
  split
  · simp only [credit_lane, State.modLane_lane, if_true]
    unfold creditLane
    split <;> rfl
  · rfl

theorem GenSlot.runningSlot {s : State} {n : Lane} {x : PatternWord} (running : (s.lane n).gen.state = .running)
    (h : patternWord s n = .ok x) : GenSlot n s (runningSlot s n x).2 := by
  unfold Machine.runningSlot
  simp only
  have hi := GenSlot.inject s n x.word x.counted
  have hg := inject_gen s n x.word x.counted
  have hrec : ∀ i, (Machine.inject s n x.word x.counted).2.record i = s.record i := hi.toSlotStep.record
  have hplan := (hi.lane n).plan
  generalize Machine.inject s n x.word x.counted = r at hi hg hrec hplan
  refine hi.trans (GenSlot.trans ?_ (GenSlot.trans (.countSlot _ n) (.afterPatternWord _ n x.step ?_ ?_)))
  · exact .modLane _ n ⟨rfl, rfl, rfl, rfl, rfl, rfl⟩ rfl (.of_same rfl rfl) id
  · simpa [Machine.countSlot, LaneState.modGen, hg] using running
  · intro q hq
    simpa [Machine.countSlot, LaneState.modGen, hg, hplan, Links, hrec] using patternWord_step h hq

theorem GenSlot.fillSlot {s : State} {n : Lane} {r : Word × State} (h : fillSlot s n = .ok r) : GenSlot n s r.2 := by
  unfold Machine.fillSlot at h
  split at h
  · cases h
    exact .refl ..
  · cases h
    exact .refl ..
  · cases h
    exact .pausingSlot s n
  · split at h <;> cases h
    exact .runningSlot ‹_› ‹_›

/-- A property of states that the generator's side of a slot and a word at one checker keep is kept by a slot. -/
theorem transmit_keeps {P : State → Prop} {s t : State} {n : Lane} (gens : ∀ u v, GenSlot n u v → P u → P v)
    (words : ∀ m u v, SlotStep u v → WordStep m u v → P u → P v) (h : transmit s n = .ok t) (hs : P s) : P t := by
  unfold transmit at h
  split at h
  · cases h
  · rename_i w u hf
    refine deliver_keeps words h (gens _ _ (.trans (.fillSlot hf) ?_) hs)
    exact .modLane u n (f := fun l => { l with txBus := w }) ⟨rfl, rfl, rfl, rfl, rfl, rfl⟩ rfl (.refl ..) id

end Sys2Proof.Machine
end

section
/-!
PROOF. Fields of byte lists (R179) and the segment record on the wire (R2, R3, R180, Table 11-4).
-/

namespace Sys2Proof.Machine

/-! ### Numbers in bytes -/

@[simp] theorem length_be (k v : Nat) : (be k v).length = k := by
  induction k with
  | zero => rfl
  | succ k ih => simp [be, ih]

@[simp] theorem length_beOf {w : Nat} (k : Nat) (v : BitVec w) : (beOf k v).length = k := length_be ..

theorem ofBe_append (as bs : List Byte) : ofBe (as ++ bs) = ofBe as * 256 ^ bs.length + ofBe bs := by
  induction bs using List.reverseRecOn with
  | nil => simp [ofBe]
  | append_singleton bs b ih =>
    have hsnoc : ∀ cs : List Byte, ofBe (cs ++ [b]) = ofBe cs * 256 + b.toNat := fun cs => by simp [ofBe]
    rw [← List.append_assoc, hsnoc, hsnoc, ih, List.length_append, List.length_singleton, pow_succ]
    ring

@[simp] theorem ofBe_singleton (b : Byte) : ofBe [b] = b.toNat := by simp [ofBe]

/-- Bytes spell a number below 256 to the power of their count. -/
theorem ofBe_lt (bs : List Byte) : ofBe bs < 256 ^ bs.length := by
  induction bs with
  | nil => simp [ofBe]
  | cons b bs ih =>
    rw [← List.singleton_append, ofBe_append, ofBe_singleton, List.length_append, List.length_singleton, pow_add]
    have := b.isLt
    nlinarith [Nat.pow_pos (n := bs.length) (by norm_num : 0 < 256)]

/-- The low bytes of a number spell it again, as far as they reach. -/
theorem ofBe_be (k v : Nat) : ofBe (be k v) = v % 256 ^ k := by
  induction k with
  | zero => simp [be, ofBe, Nat.mod_one]
  | succ k ih =>
    rw [be, ← List.singleton_append, ofBe_append, ofBe_singleton, ih, length_be, BitVec.toNat_ofNat,
      pow_succ 256 k, Nat.mod_mul, Nat.add_comm, Nat.mul_comm (256 ^ k)]

theorem ofBe_beOf {w : Nat} (k : Nat) (v : BitVec w) (h : w ≤ 8 * k) : ofBe (beOf k v) = v.toNat := by
  rw [beOf, ofBe_be, Nat.mod_eq_of_lt]
  calc v.toNat < 2 ^ w := v.isLt
    _ ≤ 2 ^ (8 * k) := Nat.pow_le_pow_right (by norm_num) h
    _ = 256 ^ k := by rw [Nat.pow_mul]

/-! ### Fields of byte lists -/

theorem fieldAt_lt (bs : List Byte) (start len : Nat) : fieldAt bs start len < 256 ^ len :=
  (ofBe_lt _).trans_le (Nat.pow_le_pow_right (by norm_num) (by simp))

@[simp] theorem byteAt_cons_zero (b : Byte) (bs : List Byte) : byteAt (b :: bs) 0 = b := rfl

@[simp] theorem byteAt_cons_succ (b : Byte) (bs : List Byte) (k : Nat) : byteAt (b :: bs) (k + 1) = byteAt bs k := by
  simp [byteAt]

/-- A byte past a beginning. -/
theorem byteAt_append (as bs : List Byte) (k : Nat) (h : as.length ≤ k) :
    byteAt (as ++ bs) k = byteAt bs (k - as.length) := by
  simp [byteAt, List.getElem?_append_right h]

/-- A field past a beginning. -/
theorem fieldAt_append (as bs : List Byte) (k len : Nat) (h : as.length ≤ k) :
    fieldAt (as ++ bs) k len = fieldAt bs (k - as.length) len := by
  simp [fieldAt, List.drop_append, List.drop_eq_nil_of_le h]

theorem fieldAt_cons (b : Byte) (bs : List Byte) (k len : Nat) : fieldAt (b :: bs) (k + 1) len = fieldAt bs k len := by
  simp [fieldAt]

/-- A field that a list begins with. -/
theorem fieldAt_zero {as bs : List Byte} {len : Nat} (h : as.length = len) : fieldAt (as ++ bs) 0 len = ofBe as := by
  simp [fieldAt, ← h]

theorem fieldAt_beOf {w : Nat} (k : Nat) (v : BitVec w) (bs : List Byte) (h : w ≤ 8 * k) :
    fieldAt (beOf k v ++ bs) 0 k = v.toNat := by
  rw [fieldAt_zero (length_beOf ..), ofBe_beOf k v h]

/-- A field of a part of a list is a field of the list. -/
theorem fieldAt_slice (bs : List Byte) (off width start len : Nat) (h : start + len ≤ width) :
    fieldAt ((bs.drop off).take width) start len = fieldAt bs (off + start) len := by
  rw [fieldAt, List.drop_take, List.take_take, List.drop_drop, Nat.min_eq_left (by omega), fieldAt]

theorem byteAt_slice (bs : List Byte) (off width start : Nat) (h : start < width) :
    byteAt ((bs.drop off).take width) start = byteAt bs (off + start) := by
  simp [byteAt, List.getD_eq_getElem?_getD, h]

/-! ### Yes/no items, links, orders and seeds -/

@[simp] theorem yesNoOfByte_yesNo (b : Bool) : yesNoOfByte (yesNo b) = some b := by cases b <;> rfl

theorem yesNoOfByte_eq_none {b : Byte} : yesNoOfByte b = none ↔ 1 < b.toNat := by
  have h0 : b = 0 ↔ b.toNat = 0 := BitVec.toNat_inj.symm
  have h1 : b = 1 ↔ b.toNat = 1 := BitVec.toNat_inj.symm
  unfold yesNoOfByte
  split
  · subst b
    simp
  · rename_i hb0
    rw [h0] at hb0
    split
    · subst b
      simp
    · rename_i hb1
      rw [h1] at hb1
      simp
      omega

theorem yesNoOfByte_eq_some {b : Byte} {v : Bool} (h : yesNoOfByte b = some v) : v = true ↔ b = 1 := by
  unfold yesNoOfByte at h
  split at h
  · cases h
    subst b
    simp
  · split at h <;> cases h
    simpa using ‹b = 1›

@[simp] theorem nextOfByte_nextCode (t : Option (Fin 64)) : nextOfByte (nextCode t) = some t := by
  cases t with
  | none => rfl
  | some i => revert i; decide

theorem nextOfByte_end : nextOfByte 255 = some none := rfl

/-- A next byte other than END is an index, or out of range. -/
theorem nextOfByte_index {b : Byte} (h : b ≠ 255) :
    nextOfByte b = if h : b.toNat < 64 then some (some ⟨b.toNat, h⟩) else none := by
  unfold nextOfByte segIndexOfByte
  rw [if_neg h]
  split <;> rfl

theorem nextOfByte_eq_none {b : Byte} : nextOfByte b = none ↔ 63 < b.toNat ∧ b.toNat ≠ 255 := by
  have h255 : b = 255 ↔ b.toNat = 255 := BitVec.toNat_inj.symm
  by_cases h : b = 255
  · subst h
    decide
  · rw [nextOfByte_index h]
    rw [h255] at h
    split <;> simp <;> omega

@[simp] theorem orderOfByte_k (o : PrbsOrder) : orderOfByte (BitVec.ofNat 8 o.k) = some o := by cases o <;> rfl

theorem orderOfByte_eq_some {b : Byte} {o : PrbsOrder} (h : orderOfByte b = some o) : o.k = b.toNat := by
  unfold orderOfByte at h
  split at h <;> cases h <;> simp_all [PrbsOrder.k]

theorem orderOfByte_eq_none {b : Byte} : orderOfByte b = none ↔ ¬ b.toNat ∈ [7, 9, 11, 15, 23, 31] := by
  unfold orderOfByte
  split <;> simp_all

theorem PrbsOrder.k_lt (o : PrbsOrder) : o.k < 32 := by cases o <;> decide

theorem lowBits_toNat (o : PrbsOrder) (v : BitVec 32) : (lowBits o.k v).toNat = v.toNat % 2 ^ o.k := by
  have hlt : 2 ^ o.k - 1 < 2 ^ 32 := by cases o <;> decide
  rw [lowBits, BitVec.toNat_and, BitVec.toNat_ofNat, Nat.mod_eq_of_lt hlt, Nat.and_two_pow_sub_one_eq_mod]

/-- A seed as R3 stores it. -/
theorem storeSeed_toNat (o : PrbsOrder) (v : BitVec 32) :
    (storeSeed o.k v).toNat = if v.toNat % 2 ^ o.k = 0 then 2 ^ o.k - 1 else v.toNat % 2 ^ o.k := by
  have hz : lowBits o.k v = 0 ↔ v.toNat % 2 ^ o.k = 0 := by rw [← lowBits_toNat, ← BitVec.toNat_inj]; rfl
  have hlt : 2 ^ o.k - 1 < 2 ^ 32 := by cases o <;> decide
  simp only [storeSeed, hz]
  split
  · rw [BitVec.toNat_ofNat, Nat.mod_eq_of_lt hlt]
  · exact lowBits_toNat o v

theorem storeSeed_inRange (o : PrbsOrder) (v : BitVec 32) :
    storeSeed o.k v ≠ 0 ∧ (storeSeed o.k v).toNat < 2 ^ o.k := by
  have hk : 1 < 2 ^ o.k := by cases o <;> decide
  have hlt := Nat.mod_lt v.toNat (Nat.two_pow_pos o.k)
  have hs := storeSeed_toNat o v
  have hne : (storeSeed o.k v).toNat ≠ 0 ∧ (storeSeed o.k v).toNat < 2 ^ o.k := by
    rw [hs]; split <;> omega
  exact ⟨fun h => hne.1 (by rw [h]; rfl), hne.2⟩

/-- A seed in range is stored as it is. -/
theorem storeSeed_eq_self {o : PrbsOrder} {seed : BitVec 32} (h0 : seed ≠ 0) (h : seed.toNat < 2 ^ o.k) :
    storeSeed o.k seed = seed := by
  have hne : seed.toNat ≠ 0 := fun hc => h0 (BitVec.eq_of_toNat_eq hc)
  apply BitVec.eq_of_toNat_eq
  rw [storeSeed_toNat, Nat.mod_eq_of_lt h, if_neg hne]

theorem storeWords_toNat {w : Nat} (h : w < 65536) : (storeWords w).toNat = if w = 0 then 65536 else w := by
  unfold storeWords
  split
  · rfl
  · rw [BitVec.toNat_ofNat, Nat.mod_eq_of_lt (by omega)]

theorem storeTail_toNat (t : Nat) : (storeTail t).toNat = if t = 0 ∨ 8 < t then 8 else t := by
  unfold storeTail
  split
  · rfl
  · rw [BitVec.toNat_ofNat, Nat.mod_eq_of_lt (by omega)]

/-! ### The bytes of a stored record -/

@[simp] theorem length_segParamBytes (k : SegKind) : (segParamBytes k).length = 16 := by
  cases k <;> simp [segParamBytes]

@[simp] theorem length_segmentBytes (sg : Segment) : (segmentBytes sg).length = 31 := by simp [segmentBytes]

/-- The record's bytes, field after field (Table 11-4). -/
theorem segmentBytes_eq (sg : Segment) :
    segmentBytes sg = segKindCode sg.kind :: (beOf 2 sg.words ++ (sg.reps :: nextCode sg.next ::
      BitVec.ofNat 8 sg.tail.toNat :: (beOf 8 sg.mask ++ (segParamBytes sg.kind ++ [yesNo sg.counted])))) := by
  simp [segmentBytes]

/-- The parameters of a stored kind come back from their area. -/
theorem segKindOfBytes_segParamBytes {k : SegKind}
    (h : ∀ o inv seed, k = .prbs o inv seed → seed ≠ 0 ∧ seed.toNat < 2 ^ o.k) :
    segKindOfBytes (segKindCode k) (segParamBytes k) = some k := by
  cases k with
  | prbs o inv seed =>
    obtain ⟨h0, hlt⟩ := h o inv seed rfl
    have hs : fieldAt (segParamBytes (.prbs o inv seed)) 2 4 = seed.toNat := by
      simp only [segParamBytes, List.cons_append, List.nil_append, fieldAt_cons]
      exact fieldAt_beOf 4 seed _ (by norm_num)
    have ho : byteAt (segParamBytes (.prbs o inv seed)) 0 = BitVec.ofNat 8 o.k := rfl
    have hi : byteAt (segParamBytes (.prbs o inv seed)) 1 = yesNo inv := rfl
    simp [segKindOfBytes, segKindCode, hs, ho, hi, storeSeed_eq_self h0 hlt]
  | list start stride rstep =>
    have ha : fieldAt (segParamBytes (.list start stride rstep)) 0 2 = start.toNat := by
      simp only [segParamBytes, List.append_assoc]
      exact fieldAt_beOf 2 start _ (by norm_num)
    have hb : fieldAt (segParamBytes (.list start stride rstep)) 2 2 = stride.toNat := by
      simp only [segParamBytes, List.append_assoc]
      rw [fieldAt_append _ _ _ _ (by simp)]
      exact fieldAt_beOf 2 stride _ (by norm_num)
    have hc : fieldAt (segParamBytes (.list start stride rstep)) 4 2 = rstep.toNat := by
      simp only [segParamBytes, List.append_assoc]
      rw [fieldAt_append _ _ _ _ (by simp), fieldAt_append _ _ _ _ (by simp)]
      simpa using fieldAt_beOf 2 rstep (be 10 0) (by norm_num)
    simp [segKindOfBytes, segKindCode, ha, hb, hc]
  | count init inc =>
    have ha : fieldAt (segParamBytes (.count init inc)) 0 8 = init.toNat := fieldAt_beOf 8 init _ (by norm_num)
    have hb : fieldAt (segParamBytes (.count init inc)) 8 8 = inc.toNat := by
      simp only [segParamBytes]
      rw [fieldAt_append _ _ _ _ (by simp)]
      simpa using fieldAt_beOf 8 inc [] (by norm_num)
    simp [segKindOfBytes, segKindCode, ha, hb]
  | fill v =>
    have ha : fieldAt (segParamBytes (.fill v)) 0 8 = v.toNat := fieldAt_beOf 8 v _ (by norm_num)
    simp [segKindOfBytes, segKindCode, ha]

theorem fieldAt_segmentBytes_words (sg : Segment) : fieldAt (segmentBytes sg) 1 2 = sg.words.toNat % 65536 := by
  rw [segmentBytes_eq, fieldAt_cons, fieldAt_zero (by simp), beOf, ofBe_be]
  rfl

theorem fieldAt_segmentBytes_mask (sg : Segment) : fieldAt (segmentBytes sg) 6 8 = sg.mask.toNat := by
  rw [segmentBytes_eq, fieldAt_cons, fieldAt_append _ _ _ _ (by simp), length_beOf, fieldAt_cons, fieldAt_cons,
    fieldAt_cons, fieldAt_beOf 8 _ _ (by norm_num)]

theorem byteAt_segmentBytes_link (sg : Segment) :
    byteAt (segmentBytes sg) 3 = sg.reps ∧ byteAt (segmentBytes sg) 4 = nextCode sg.next ∧
      byteAt (segmentBytes sg) 5 = BitVec.ofNat 8 sg.tail.toNat := by
  simp [segmentBytes_eq, byteAt_append]

theorem byteAt_segmentBytes_counted (sg : Segment) : byteAt (segmentBytes sg) 30 = yesNo sg.counted := by
  simp [segmentBytes_eq, byteAt_append]

theorem segmentBytes_params (sg : Segment) : ((segmentBytes sg).drop 14).take 16 = segParamBytes sg.kind := by
  simp [segmentBytes_eq, List.drop_append, List.take_append]

/-- A stored record comes back byte for byte. -/
theorem segmentOfBytes_segmentBytes {sg : Segment} (h : SegmentInRange sg) :
    segmentOfBytes (segmentBytes sg) = some sg := by
  obtain ⟨hw1, hw2, ht1, ht2, hseed⟩ := h
  obtain ⟨hr, hn, ht⟩ := byteAt_segmentBytes_link sg
  have hk : byteAt (segmentBytes sg) 0 = segKindCode sg.kind := by rw [segmentBytes_eq]; rfl
  have htail : storeTail (byteAt (segmentBytes sg) 5).toNat = sg.tail := by
    apply BitVec.eq_of_toNat_eq
    rw [ht, storeTail_toNat, BitVec.toNat_ofNat, Nat.mod_eq_of_lt (by omega), if_neg (by omega)]
  have hwords : storeWords (sg.words.toNat % 65536) = sg.words := by
    apply BitVec.eq_of_toNat_eq
    rw [storeWords_toNat (by omega)]
    split <;> omega
  simp only [segmentOfBytes, hk, segmentBytes_params, segKindOfBytes_segParamBytes hseed, hn, nextOfByte_nextCode,
    byteAt_segmentBytes_counted, yesNoOfByte_yesNo, fieldAt_segmentBytes_words, fieldAt_segmentBytes_mask, hr, htail,
    hwords, BitVec.ofNat_toNat, BitVec.setWidth_eq]

/-! ### What any record's bytes store -/

/-- The parts of a record that is in range. -/
theorem segmentOfBytes_some {bs : List Byte} {sg : Segment} (h : segmentOfBytes bs = some sg) :
    segKindOfBytes (byteAt bs 0) ((bs.drop 14).take 16) = some sg.kind ∧ nextOfByte (byteAt bs 4) = some sg.next ∧
    yesNoOfByte (byteAt bs 30) = some sg.counted ∧ sg.words = storeWords (fieldAt bs 1 2) ∧ sg.reps = byteAt bs 3 ∧
    sg.mask = BitVec.ofNat 64 (fieldAt bs 6 8) ∧ sg.tail = storeTail (byteAt bs 5).toNat := by
  unfold segmentOfBytes at h
  split at h <;> cases h
  exact ⟨‹_›, ‹_›, ‹_›, rfl, rfl, rfl, rfl⟩

theorem segmentOfBytes_eq_none {bs : List Byte} : segmentOfBytes bs = none ↔
    segKindOfBytes (byteAt bs 0) ((bs.drop 14).take 16) = none ∨ nextOfByte (byteAt bs 4) = none ∨
      yesNoOfByte (byteAt bs 30) = none := by
  unfold segmentOfBytes
  cases segKindOfBytes (byteAt bs 0) ((bs.drop 14).take 16) <;> cases nextOfByte (byteAt bs 4) <;>
    cases yesNoOfByte (byteAt bs 30) <;> simp

/-- The parameters of a PRBS record, as stored. -/
theorem segKindOfBytes_zero {kind : Byte} {par : List Byte} {k : SegKind} (hkind : kind.toNat = 0)
    (h : segKindOfBytes kind par = some k) :
    ∃ o inv, orderOfByte (byteAt par 0) = some o ∧ yesNoOfByte (byteAt par 1) = some inv ∧
      k = .prbs o inv (storeSeed o.k (BitVec.ofNat 32 (fieldAt par 2 4))) := by
  simp only [segKindOfBytes, hkind] at h
  split at h <;> cases h
  exact ⟨_, _, ‹_›, ‹_›, rfl⟩

theorem segKindOfBytes_eq_none {kind : Byte} {par : List Byte} : segKindOfBytes kind par = none ↔
    3 < kind.toNat ∨ (kind.toNat = 0 ∧ (orderOfByte (byteAt par 0) = none ∨ yesNoOfByte (byteAt par 1) = none)) := by
  unfold segKindOfBytes
  split
  · cases orderOfByte (byteAt par 0) <;> cases yesNoOfByte (byteAt par 1) <;> simp_all
  all_goals simp_all
  omega

/-- A PRBS seed that a record's bytes store is in range (R3). -/
theorem segKindOfBytes_seed {kind : Byte} {par : List Byte} {o : PrbsOrder} {inv : Bool} {seed : BitVec 32}
    (h : segKindOfBytes kind par = some (.prbs o inv seed)) : seed ≠ 0 ∧ seed.toNat < 2 ^ o.k := by
  have hk : kind.toNat = 0 := by
    unfold segKindOfBytes at h
    split at h
    · assumption
    all_goals cases h
  obtain ⟨o', inv', -, -, he⟩ := segKindOfBytes_zero hk h
  cases he
  exact storeSeed_inRange ..

/-- What SEG_WRITE stores lies in the ranges of Table 1-1 (R2, R3). -/
theorem segmentInRange_of_bytes {bs : List Byte} {sg : Segment} (h : segmentOfBytes bs = some sg) :
    SegmentInRange sg := by
  obtain ⟨hk, -, -, hw, -, -, ht⟩ := segmentOfBytes_some h
  have hwt := storeWords_toNat (fieldAt_lt bs 1 2)
  have htt := storeTail_toNat (byteAt bs 5).toNat
  rw [← hw] at hwt
  rw [← ht] at htt
  have hlt := fieldAt_lt bs 1 2
  refine ⟨?_, ?_, ?_, ?_, fun o inv seed hs => segKindOfBytes_seed (hs ▸ hk)⟩ <;> split at hwt <;> split at htt <;>
    omega

/-- The substitutions of R2 on a record's fields. -/
theorem segment_fields_of_bytes {bs : List Byte} {sg : Segment} (h : segmentOfBytes bs = some sg) :
    sg.words.toNat = (if fieldAt bs 1 2 = 0 then 65536 else fieldAt bs 1 2) ∧ sg.reps = byteAt bs 3 ∧
    (byteAt bs 4 = 255 → sg.next = none) ∧
    (byteAt bs 4 ≠ 255 → ∃ i : Fin 64, i.val = (byteAt bs 4).toNat ∧ sg.next = some i) ∧
    sg.tail.toNat = (if byteAt bs 5 = 0 ∨ 8 < (byteAt bs 5).toNat then 8 else (byteAt bs 5).toNat) ∧
    sg.mask.toNat = fieldAt bs 6 8 ∧ (sg.counted = true ↔ byteAt bs 30 = 1) := by
  obtain ⟨-, hn, hc, hw, hr, hm, ht⟩ := segmentOfBytes_some h
  refine ⟨?_, hr, fun hend => ?_, fun hindex => ?_, ?_, ?_, yesNoOfByte_eq_some hc⟩
  · rw [hw, storeWords_toNat (fieldAt_lt bs 1 2)]
  · rw [hend, nextOfByte_end] at hn
    exact (Option.some.inj hn).symm
  · rw [nextOfByte_index hindex] at hn
    split at hn
    · exact ⟨_, rfl, (Option.some.inj hn).symm⟩
    · cases hn
  · have h0 : byteAt bs 5 = 0 ↔ (byteAt bs 5).toNat = 0 := BitVec.toNat_inj.symm
    simp only [ht, storeTail_toNat, h0]
  · rw [hm, BitVec.toNat_ofNat]
    exact Nat.mod_eq_of_lt (fieldAt_lt bs 6 8)

/-- A PRBS record's parameters (R3, Table 11-4). -/
theorem segment_prbs_of_bytes {bs : List Byte} {sg : Segment} (h : segmentOfBytes bs = some sg)
    (hkind : byteAt bs 0 = 0) :
    ∃ (o : PrbsOrder) (invert : Bool) (seed : BitVec 32), sg.kind = .prbs o invert seed ∧
      o.k = (byteAt bs 14).toNat ∧ (invert = true ↔ byteAt bs 15 = 1) ∧
      seed.toNat = if fieldAt bs 16 4 % 2 ^ o.k = 0 then 2 ^ o.k - 1 else fieldAt bs 16 4 % 2 ^ o.k := by
  obtain ⟨hk, -⟩ := segmentOfBytes_some h
  obtain ⟨o, inv, ho, hi, he⟩ := segKindOfBytes_zero (by rw [hkind]; rfl) hk
  rw [byteAt_slice _ _ _ _ (by norm_num)] at ho hi
  rw [fieldAt_slice _ _ _ _ _ (by norm_num)] at he
  refine ⟨o, inv, _, he, orderOfByte_eq_some ho, yesNoOfByte_eq_some hi, ?_⟩
  rw [storeSeed_toNat, BitVec.toNat_ofNat, Nat.mod_eq_of_lt (show _ < 2 ^ 32 from fieldAt_lt bs 16 4)]

theorem segment_list_of_bytes {bs : List Byte} {sg : Segment} (h : segmentOfBytes bs = some sg)
    (hkind : byteAt bs 0 = 1) :
    ∃ start stride rstep : BitVec 12, sg.kind = .list start stride rstep ∧
      start.toNat = fieldAt bs 14 2 % 4096 ∧ stride.toNat = fieldAt bs 16 2 % 4096 ∧
      rstep.toNat = fieldAt bs 18 2 % 4096 := by
  obtain ⟨hk, -⟩ := segmentOfBytes_some h
  rw [hkind] at hk
  refine ⟨_, _, _, (Option.some.inj hk).symm, ?_, ?_, ?_⟩ <;>
    rw [fieldAt_slice _ _ _ _ _ (by norm_num), BitVec.toNat_ofNat]

theorem segment_count_of_bytes {bs : List Byte} {sg : Segment} (h : segmentOfBytes bs = some sg)
    (hkind : byteAt bs 0 = 2) :
    ∃ init inc : Word, sg.kind = .count init inc ∧ init.toNat = fieldAt bs 14 8 ∧ inc.toNat = fieldAt bs 22 8 := by
  obtain ⟨hk, -⟩ := segmentOfBytes_some h
  rw [hkind] at hk
  refine ⟨_, _, (Option.some.inj hk).symm, ?_, ?_⟩ <;>
    rw [fieldAt_slice _ _ _ _ _ (by norm_num), BitVec.toNat_ofNat] <;> exact Nat.mod_eq_of_lt (fieldAt_lt ..)

theorem segment_fill_of_bytes {bs : List Byte} {sg : Segment} (h : segmentOfBytes bs = some sg)
    (hkind : byteAt bs 0 = 3) : ∃ v : Word, sg.kind = .fill v ∧ v.toNat = fieldAt bs 14 8 := by
  obtain ⟨hk, -⟩ := segmentOfBytes_some h
  rw [hkind] at hk
  refine ⟨_, (Option.some.inj hk).symm, ?_⟩
  rw [fieldAt_slice _ _ _ _ _ (by norm_num), BitVec.toNat_ofNat]
  exact Nat.mod_eq_of_lt (fieldAt_lt ..)

/-- The bytes that are out of range (R2). -/
theorem segmentOfBytes_outOfRange (bs : List Byte) : segmentOfBytes bs = none ↔
    3 < (byteAt bs 0).toNat ∨ (63 < (byteAt bs 4).toNat ∧ (byteAt bs 4).toNat ≠ 255) ∨ 1 < (byteAt bs 30).toNat ∨
      ((byteAt bs 0).toNat = 0 ∧
        (¬ (byteAt bs 14).toNat ∈ [7, 9, 11, 15, 23, 31] ∨ 1 < (byteAt bs 15).toNat)) := by
  rw [segmentOfBytes_eq_none, segKindOfBytes_eq_none, nextOfByte_eq_none, yesNoOfByte_eq_none, orderOfByte_eq_none,
    yesNoOfByte_eq_none, byteAt_slice _ _ _ _ (by norm_num), byteAt_slice _ _ _ _ (by norm_num)]
  tauto

/-- Settles O15: the round trip, the ranges and each field are lemmas about the record's bytes. -/
theorem segmentRecordsRoundTrip : Obligations.SegmentRecordsRoundTrip := by
  refine ⟨fun sg h => ⟨length_segmentBytes sg, segmentOfBytes_segmentBytes h⟩, fun bs sg => segmentInRange_of_bytes,
    fun bs sg h => ?_, segmentOfBytes_outOfRange⟩
  obtain ⟨hw, hr, hend, hnext, ht, hm, hc⟩ := segment_fields_of_bytes h
  exact ⟨hw, hr, hend, hnext, ht, hm, hc, segment_prbs_of_bytes h, segment_list_of_bytes h, segment_count_of_bytes h,
    segment_fill_of_bytes h⟩

end Sys2Proof.Machine
end

section
/-!
PROOF. The commands on the Segment Table and the Pattern Word Store (R14 to R21): a cursor moved under a reply, and each
command's answer in the cases of its rule.
-/

namespace Sys2Proof.Machine

/-! ### A port changed under a reply -/

/-- A change of a port that does not touch its response stands beside the reply. -/
theorem shifted_modPort_respond (s : State) (p : Port) (len : Nat) (r : Response) (g : PortState → PortState)
    (h : ∀ v : PortState, { g v with response := r } = g { v with response := r }) :
    ((s.shifted p len).modPort p g).respond p r = (replied p len r s).modPort p g := by
  cases p
  · exact congrArg (fun v => { s with portA := v }) (h _)
  · exact congrArg (fun v => { s with portB := v }) (h _)

theorem modPort_congr {s : State} {p : Port} {f g : PortState → PortState} (h : f (s.port p) = g (s.port p)) :
    s.modPort p f = s.modPort p g := by
  simp only [State.modPort, h]

/-! ### Cursors -/

@[simp] theorem cursorSegment_castSucc (i : Fin 64) : cursorSegment i.castSucc = some i := by simp [cursorSegment]

theorem cursorSegment_end {c : Fin 65} (h : c.val = 64) : cursorSegment c = none := by simp [cursorSegment, h]

/-- An index argument past the table (R15, R18). -/
theorem segIndexOfByte_eq_none {b : Byte} (h : 63 < b.toNat) : segIndexOfByte b = none := by
  simp [segIndexOfByte, Nat.not_lt.mpr h]

theorem addressOfBytes_be (a : Fin 4096) : addressOfBytes (be 2 a.val) = some a := by
  have h : ofBe (be 2 a.val) = a.val := by
    rw [ofBe_be, Nat.mod_eq_of_lt (by omega)]
  simp [addressOfBytes, h]

/-- The word cursor moved over the words that fit (R14, R20). -/
theorem advanceWordCursor_fitting (c : Fin 4097) (n : Nat) :
    advanceWordCursor c (wordsFitting c n) = Fin.ofNat 4097 (min (c.val + n) 4096) := by
  apply Fin.ext
  simp only [advanceWordCursor, wordsFitting, Fin.val_ofNat]
  omega

theorem wordReply_fitting (c : Fin 4097) (n : Nat) :
    wordReply (wordsFitting c n) (advanceWordCursor c (wordsFitting c n)) =
      be 1 (min n (4096 - c.val)) ++ be 2 (min (c.val + n) 4096) := by
  have h : min (c.val + min n (4096 - c.val)) 4096 = min (c.val + n) 4096 := by omega
  simp [wordReply, advanceWordCursor, wordsFitting, h]

/-! ### SEG_SELECT and WORD_SELECT -/

/-- Settles O13: each select either moves the sender's cursor under its reply, or is refused with RANGE. -/
theorem selectsSetTheCursors : Obligations.SelectsSetTheCursors := by
  intro p s h
  refine ⟨fun i => ?_, fun b hb => ?_, fun a => ?_, fun args hlen ha => ?_⟩
  · have he : exec (.segSelect p.frame [BitVec.ofNat 8 i.val]) s = execSegSelect p.frame [BitVec.ofNat 8 i.val] s := rfl
    rw [he, execSegSelect, portCommand_taken h]
    simp only [segIndexOfByte_ofNat, settle_done]
    exact congrArg Host.Outcome.next (shifted_modPort_respond s p 2 _ (fun v => v.setSegCursor i.castSucc) fun _ => rfl)
  · have he : exec (.segSelect p.frame [b]) s = execSegSelect p.frame [b] s := rfl
    rw [he, execSegSelect, portCommand_taken h]
    simp only [segIndexOfByte_eq_none hb]
    exact settle_refuse (by simp) ..
  · have he : exec (.wordSelect p.frame (be 2 a.val)) s = execWordSelect p.frame (be 2 a.val) s := rfl
    rw [he, execWordSelect, portCommand_taken h]
    simp only [length_be, if_true, addressOfBytes_be, settle_done]
    exact congrArg Host.Outcome.next
      (shifted_modPort_respond s p 3 _ (fun v => v.setWordCursor a.castSucc) fun _ => rfl)
  · have he : exec (.wordSelect p.frame args) s = execWordSelect p.frame args s := rfl
    have hn : addressOfBytes args = none := by simp [addressOfBytes, Nat.not_lt.mpr ha]
    rw [he, execWordSelect, portCommand_taken h]
    simp only [hlen, if_true, hn]
    exact settle_refuse (by simp) ..

/-! ### SEG_WRITE, SEG_READ and SEG_CLEAR -/

/-- Every plan that reaches segment i without VALID (R34), as the statements write it. -/
theorem invalidate_lanes (s : State) (i : Fin 64) : (invalidate s i).lanes = s.lanes.map fun l =>
    if l.plan.reach.getLsbD i.val then
      { l with plan := { l.plan with valid := false, verdict := .changed, verdictSeg := i } }
    else l := rfl

/-- Index i of the Segment Table replaced, by SEG_WRITE or SEG_CLEAR, when no walker uses it: what follows. -/
def segReplaced (s : State) (i : Fin 64) (record : Option Segment) : State :=
  { s with
    segs := s.segs.set i { record := record, useSet := 0 }
    lanes := s.lanes.map fun l =>
      if l.plan.reach.getLsbD i.val then
        { l with plan := { l.plan with valid := false, verdict := .changed, verdictSeg := i } }
      else l }

theorem writeSegment_unused {s : State} {i : Fin 64} (sg : Segment) (h : (s.seg i).useSet = 0) :
    writeSegment s i sg = segReplaced s i (some sg) := by
  simp only [writeSegment, invalidate, h]
  rfl

theorem clearSegment_unused {s : State} {i : Fin 64} (h : (s.seg i).useSet = 0) :
    clearSegment s i = segReplaced s i none := by
  simp only [clearSegment, invalidate, h]
  rfl

theorem segReplaced_respond (s : State) (i : Fin 64) (record : Option Segment) (p : Port) (len : Nat) (r : Response) :
    (segReplaced (s.shifted p len) i record).respond p r = segReplaced (replied p len r s) i record := by
  cases p <;> rfl

/-- The answer to SEG_WRITE in each of its cases (R16). -/
theorem execSegWrite_taken {p : Port} {args : List Byte} {s : State} (h : FramesTaken s p) (hlen : args.length = 31)
    {i : Fin 64} {sg : Segment} (hc : (s.port p).segCursor = i.castSucc) (hsg : segmentOfBytes args = some sg) :
    execSegWrite p.frame args s =
      settleAnswer p 0x11 (s.shifted p 32)
        (if s.holder (segResource i) = some (otherPort p) then .refuse .reserved
        else if (s.seg i).useSet ≠ 0 then .refuse .busy
        else .done .ok (segIndexCode i :: segmentBytes sg)
          ((writeSegment (s.shifted p 32) i sg).modPort p fun v => v.setSegCursor (afterSegment i))) := by
  rw [execSegWrite, portCommand_taken h]
  simp [hlen, hc, hsg, heldByOther_eq_true]

/-- Settles O14, by the cases of R16. -/
theorem segWriteDefinesAndInvalidates : Obligations.SegWriteDefinesAndInvalidates := by
  intro p args s h hlen
  have he : exec (.segWrite p.frame args) s = execSegWrite p.frame args s := rfl
  rw [he]
  refine ⟨fun i sg hc hsg => ?_, fun hrange => ?_⟩
  · rw [execSegWrite_taken h hlen hc hsg]
    refine ⟨fun hf hu => ?_, fun hf hu => ?_, fun hheld => ?_⟩
    · have hu' : ((s.shifted p 32).seg i).useSet = 0 := by simpa using hu
      rw [if_neg hf, if_neg (not_not.mpr hu), settle_done, writeSegment_unused sg hu']
      cases p <;> rfl
    · rw [if_neg hf, if_pos hu]
      exact settle_refuse (by simp) ..
    · rw [if_pos hheld]
      exact settle_refuse (by simp) ..
  · have hn : ∀ q : Option (Fin 64), q = cursorSegment (s.port p).segCursor →
        q = none ∨ segmentOfBytes args = none := by
      rintro q rfl
      exact hrange.imp_left cursorSegment_end
    rw [execSegWrite, portCommand_taken h]
    simp only [hlen, if_true, State.shifted_port]
    split
    · rename_i hq hsg
      rcases hn _ rfl with h0 | h0
      · simp [h0] at hq
      · simp [h0] at hsg
    · exact settle_refuse (by simp) ..

/-- The record bytes of a reply, as the statement of SEG_READ writes them (R17). -/
theorem slotBytes_eq (slot : SegSlot) : slotBytes slot =
    match slot.record with
    | some sg => 1 :: segmentBytes sg ++ [slot.useSet]
    | none => List.replicate 33 0 := by
  unfold slotBytes
  cases slot.record <;> rfl

/-- The answer to SEG_CLEAR of an index of the table, in each of its cases (R18). -/
theorem execSegClear_taken {p : Port} {s : State} (h : FramesTaken s p) (i : Fin 64) :
    execSegClear p.frame [BitVec.ofNat 8 i.val] s =
      settleAnswer p 0x13 (s.shifted p 2)
        (if s.holder (segResource i) = some (otherPort p) then .refuse .reserved
        else if (s.seg i).useSet ≠ 0 then .refuse .busy
        else .done .ok [BitVec.ofNat 8 i.val] (clearSegment (s.shifted p 2) i)) := by
  rw [execSegClear, portCommand_taken h]
  simp [heldByOther_eq_true]

/-- Settles O16: SEG_READ by the cursor, SEG_CLEAR by the cases of R18. -/
theorem segReadAndSegClear : Obligations.SegReadAndSegClear := by
  intro p s h
  have hread : exec (.segRead p.frame []) s = execSegRead p.frame [] s := rfl
  have hclear : ∀ b, exec (.segClear p.frame [b]) s = execSegClear p.frame [b] s := fun _ => rfl
  rw [hread]
  refine ⟨fun i hc => ?_, fun hc => ?_, fun i hf hu => ?_, fun i hf hu => ?_, fun i hheld => ?_, fun b hb => ?_⟩
  · rw [execSegRead, bareCommand_taken h]
    simp only [Port.frame_port, State.shifted_port, if_true, hc, cursorSegment_castSucc, State.shifted_seg, slotBytes_eq,
      settle_done]
    exact congrArg Host.Outcome.next
      (shifted_modPort_respond s p 1 _ (fun v => v.setSegCursor (afterSegment i)) fun _ => rfl)
  · rw [execSegRead, bareCommand_taken h]
    simp only [Port.frame_port, State.shifted_port, if_true, cursorSegment_end hc]
    exact settle_refuse (by simp) ..
  · have hu' : ((s.shifted p 2).seg i).useSet = 0 := by simpa using hu
    rw [hclear, execSegClear_taken h, if_neg hf, if_neg (not_not.mpr hu), settle_done, clearSegment_unused hu',
      segReplaced_respond]
    cases p <;> rfl
  · rw [hclear, execSegClear_taken h, if_neg hf, if_pos hu]
    exact settle_refuse (by simp) ..
  · rw [hclear, execSegClear_taken h, if_pos hheld]
    exact settle_refuse (by simp) ..
  · rw [hclear, execSegClear, portCommand_taken h]
    simp only [segIndexOfByte_eq_none hb]
    exact settle_refuse (by simp) ..

/-! ### WORD_READ and WORD_WRITE -/

/-- Settles O18: the words that fit from the cursor, and EMPTY only where none does. -/
theorem wordReadReturnsStoredWords : Obligations.WordReadReturnsStoredWords := by
  intro p n s h
  have he : exec (.wordRead p.frame [n]) s = execWordRead p.frame [n] s := rfl
  have hempty : n ≠ 0 ∧ wordsFitting (s.port p).wordCursor n.toNat = 0 ↔
      n ≠ 0 ∧ (s.port p).wordCursor.val = 4096 := by
    refine and_congr_right fun hn => ?_
    have h0 : n.toNat ≠ 0 := fun hc => hn (BitVec.eq_of_toNat_eq hc)
    have := (s.port p).wordCursor.isLt
    unfold wordsFitting
    omega
  rw [he, execWordRead, portCommand_taken h]
  simp only [Port.frame_port, State.shifted_port, if_true, State.shifted_store, settle_done, wordReply_fitting, hempty]
  rw [shifted_modPort_respond s p _ _ (fun v => v.setWordCursor _) fun _ => rfl]
  simp only [bytesOfWords, storeReadMany, List.flatMap_map, advanceWordCursor_fitting]
  refine congrArg Host.Outcome.next (modPort_congr ?_)
  simp [PortState.setWordCursor]

/-- The words that bytes spell, as many as are asked for. -/
theorem wordsOfBytes_flatMap (ws : List Word) (m : Nat) (h : m ≤ ws.length) :
    wordsOfBytes m (ws.flatMap fun w => be 8 w.toNat) = ws.take m := by
  induction m generalizing ws with
  | zero => simp [wordsOfBytes]
  | succ m ih =>
    cases ws with
    | nil => simp at h
    | cons w ws =>
      have hw : ofBe (be 8 w.toNat) = w.toNat := ofBe_beOf 8 w (by norm_num)
      have ht : ((be 8 w.toNat ++ ws.flatMap fun w => be 8 w.toNat).take 8) = be 8 w.toNat :=
        List.take_left' (length_be ..)
      have hd : ((be 8 w.toNat ++ ws.flatMap fun w => be 8 w.toNat).drop 8) = ws.flatMap fun w => be 8 w.toNat :=
        List.drop_left' (length_be ..)
      simp only [List.flatMap_cons, wordsOfBytes, ht, hd, hw, List.take_succ_cons, BitVec.ofNat_toNat,
        BitVec.setWidth_eq]
      rw [ih ws (by simpa using h)]

theorem length_flatMap_be (ws : List Word) : (ws.flatMap fun w => be 8 w.toNat).length = 8 * ws.length := by
  induction ws with
  | nil => rfl
  | cons w ws ih => simp [ih]; omega

/-- A word block of the other port in the way (R20). -/
theorem wordsReserved_iff (s : State) (p : Port) (c : Fin 4097) (n : Nat) :
    wordsReserved s p c (wordsFitting c n) = true ↔
      ∃ a : Fin 4096, c.val ≤ a.val ∧ a.val < c.val + n ∧ s.holder (wordResource a) = some (otherPort p) := by
  simp only [wordsReserved, List.any_eq_true, List.mem_range, wordsFitting]
  constructor
  · rintro ⟨k, hk, hh⟩
    rw [dif_pos (by omega)] at hh
    exact ⟨⟨c.val + k, by omega⟩, by simp, by simp; omega, heldByOther_eq_true.mp hh⟩
  · rintro ⟨a, h1, h2, hh⟩
    have ha := a.isLt
    refine ⟨a.val - c.val, by omega, ?_⟩
    rw [dif_pos (by omega)]
    have hx : (⟨c.val + (a.val - c.val), by omega⟩ : Fin 4096) = a := Fin.ext (by simp; omega)
    rw [hx]
    exact heldByOther_eq_true.mpr hh

/-- The answer to a WORD_WRITE whose length agrees with its count (R20). -/
theorem execWordWrite_taken {p : Port} {ws : List Word} {s : State} (h : FramesTaken s p) (hn : ws.length ≤ 255) :
    execWordWrite p.frame (BitVec.ofNat 8 ws.length :: ws.flatMap fun w => be 8 w.toNat) s =
      settleAnswer p 0x15 (s.shifted p (2 + 8 * ws.length))
        (if wordsReserved s p (s.port p).wordCursor (wordsFitting (s.port p).wordCursor ws.length) then
          .refuse .reserved
        else
          .done .ok
            (be 1 (min ws.length (4096 - (s.port p).wordCursor.val)) ++
              be 2 (min ((s.port p).wordCursor.val + ws.length) 4096))
            ({ s.shifted p (2 + 8 * ws.length) with
                store := storeWriteMany s.store (s.port p).wordCursor.val
                  (ws.take (wordsFitting (s.port p).wordCursor ws.length)) }.modPort p fun v =>
              v.setWordCursor (Fin.ofNat 4097 (min ((s.port p).wordCursor.val + ws.length) 4096)))) := by
  have hb : (BitVec.ofNat 8 ws.length).toNat = ws.length := by
    rw [BitVec.toNat_ofNat, Nat.mod_eq_of_lt (by omega)]
  have hfit : wordsFitting (s.port p).wordCursor ws.length ≤ ws.length := by unfold wordsFitting; omega
  have hlen : 1 + (8 * ws.length + 1) = 2 + 8 * ws.length := by omega
  have hres : ∀ len c m, wordsReserved (s.shifted p len) p c m = wordsReserved s p c m := fun _ _ _ => by
    simp [wordsReserved]
  rw [execWordWrite, portCommand_taken h]
  simp only [List.length_cons, length_flatMap_be, hlen, hb, if_true, Port.frame_port, State.shifted_port,
    State.shifted_store, hres, wordReply_fitting, wordsOfBytes_flatMap ws _ hfit]
  simp only [advanceWordCursor_fitting]

/-- A WORD_WRITE whose length does not agree with its count is a FRAME refusal (R20, R163). -/
theorem execWordWrite_wrongLength {p : Port} {args : List Byte} {s : State} (h : FramesTaken s p)
    (hlen : frameLengthFits (.wordWrite p.frame args) = false) :
    execWordWrite p.frame args s = .next (frameRefused p (1 + args.length) 0x15 s) := by
  rw [execWordWrite, portCommand_taken h]
  cases args with
  | nil => exact settle_frame ..
  | cons n data =>
    have hne : ¬ data.length = 8 * n.toNat := by simpa [frameLengthFits] using hlen
    simp only [hne, if_false]
    exact settle_frame ..

/-- Settles O17: the store after the write read address by address, the refusals, and the length. -/
theorem wordWriteStoresItsWords : Obligations.WordWriteStoresItsWords := by
  refine ⟨fun p ws s h hwf hn => ?_, fun p args s h hlen => execWordWrite_wrongLength h hlen⟩
  have he : exec (.wordWrite p.frame (BitVec.ofNat 8 ws.length :: ws.flatMap fun w => be 8 w.toNat)) s =
    execWordWrite p.frame (BitVec.ofNat 8 ws.length :: ws.flatMap fun w => be 8 w.toNat) s := rfl
  rw [he, execWordWrite_taken h hn]
  refine ⟨fun hfree => ?_, fun hheld => ?_⟩
  · have hr : ¬ wordsReserved s p (s.port p).wordCursor (wordsFitting (s.port p).wordCursor ws.length) = true := by
      rw [wordsReserved_iff]
      rintro ⟨a, h1, h2, h3⟩
      exact hfree a h1 h2 h3
    rw [if_neg hr, settle_done]
    refine ⟨_, rfl, by cases p <;> rfl, fun a => ?_⟩
    have hc := (s.port p).wordCursor.isLt
    have ha := a.isLt
    have hl : (ws.take (wordsFitting (s.port p).wordCursor ws.length)).length =
        min ws.length (4096 - (s.port p).wordCursor.val) := by
      simp [wordsFitting]
    have hfits : (s.port p).wordCursor.val + (ws.take (wordsFitting (s.port p).wordCursor ws.length)).length ≤
        Config.storeSize := by rw [hl, Config.storeSize]; omega
    simp only [State.respond_store, State.modPort_store]
    rw [storeRead_storeWriteMany hwf hfits, hl]
    by_cases hin : (s.port p).wordCursor.val ≤ a.val ∧ a.val < (s.port p).wordCursor.val + ws.length
    · rw [if_pos hin, if_pos ⟨hin.1, by omega⟩]
      simp only [List.getD_eq_getElem?_getD, wordsFitting]
      rw [List.getElem?_take_of_lt (by omega)]
    · rw [if_neg hin, if_neg (by omega)]
  · rw [if_pos ((wordsReserved_iff ..).mpr hheld)]
    exact settle_refuse (by simp) ..

end Sys2Proof.Machine
end

section
/-!
PROOF. What commands leave alone: the shared tables (R1, R11, R12, R165, R178), and the other port's own state (R14,
R151, R160 to R163, R170, R172, R177).
-/

namespace Sys2Proof.Machine

/-! ### Closes and the ports -/

/-- A port of which the close of lane n's interval has moved at most INTERVAL_CLOSED, THRESHOLD and the result cursor of
that lane (R136, R137, R152). -/
structure CloseKept (n : Lane) (v u : PortState) : Prop extends PortKept v u where
  flags : ∀ k, u.view.pending.getLsbD k = true → v.view.pending.getLsbD k = true ∨ k = 6 * n.val + 3 ∨ k = 6 * n.val + 4
  results : ∀ m : Lane, m ≠ n → u.results[m] = v.results[m]

theorem CloseKept.refl (n : Lane) (v : PortState) : CloseKept n v v := ⟨.refl v, fun _ => .inl, fun _ _ => rfl⟩

theorem CloseKept.trans {n : Lane} {a b c : PortState} (h : CloseKept n a b) (g : CloseKept n b c) :
    CloseKept n a c where
  toPortKept := h.toPortKept.trans g.toPortKept
  flags k hk := by
    rcases g.flags k hk with hb | hb
    · exact h.flags k hb
    · exact .inr hb
  results m hm := (g.results m hm).trans (h.results m hm)

/-- An event's flag is its bit (R182). -/
theorem Event.flag_getLsbD {e : Event} {k : Nat} (h : e.flag.getLsbD k = true) : k = e.bit := by
  simp only [Event.flag, BitVec.getLsbD_ofNat, Bool.and_eq_true, Nat.testBit_two_pow, decide_eq_true_eq] at h
  exact h.2.symm

theorem CloseKept.raise (s : State) (n : Lane) (p : Port) {e : Event} (hr : e ≠ .restarted)
    (he : e.bit = 6 * n.val + 3 ∨ e.bit = 6 * n.val + 4) : CloseKept n (s.port p) ((s.raise e).port p) where
  toPortKept := (SlotStep.raise s hr).port p
  flags k hk := by
    simp only [State.raise_port, BitVec.getLsbD_or, Bool.or_eq_true] at hk
    rcases hk with hk | hk
    · exact .inl hk
    · exact .inr (Event.flag_getLsbD hk ▸ he)
  results m _ := by simp

theorem modResult_other {v : PortState} {n m : Lane} (h : m ≠ n) (f : ResultCursor → ResultCursor) :
    (v.modResult n f).results[m] = v.results[m] := by
  have hv : n.val ≠ m.val := fun hc => h (Fin.ext hc.symm)
  simp [PortState.modResult, Vector.getElem_set_ne _ _ hv]

theorem CloseKept.modResult (n : Lane) (v : PortState) (f : ResultCursor → ResultCursor) :
    CloseKept n v (v.modResult n f) :=
  ⟨⟨rfl, rfl, rfl, rfl, rfl, rfl, rfl, fun _ h => h, rfl⟩, fun _ => .inl, fun _ hm => modResult_other hm f⟩

theorem CloseKept.pushRecord (s : State) (n : Lane) (r : IntervalRecord) (p : Port) :
    CloseKept n (s.port p) ((pushRecord s n r).port p) := by
  simp only [Machine.pushRecord]
  split
  · split
    · simp only [State.modPorts_port, State.modLane_port]
      exact .modResult ..
    · simp only [State.modLane_port]
      exact .refl ..
  · simp only [State.modLane_port]
    exact .refl ..

theorem offerClose_port (s : State) (n : Lane) (cause : CloseCause) (sender : Option Port) (p : Port) :
    (offerClose s n cause sender).port p = s.port p := by
  unfold offerClose
  split
  · cases p <;> rfl
  · rfl

theorem CloseKept.closeWithRecord (s : State) (n : Lane) (cause : CloseCause) (p : Port) :
    CloseKept n (s.port p) ((closeWithRecord s n cause).port p) := by
  simp only [Machine.closeWithRecord, State.modLane_port]
  have h := (CloseKept.pushRecord (s.setLane n (classifyOpenSlice (s.lane n))) n
    (buildRecord n cause (classifyOpenSlice (s.lane n))) p).trans
      (CloseKept.raise _ n p (e := .intervalClosed n) (by simp) (.inl rfl))
  rw [State.setLane_port] at h
  split
  · exact h.trans (CloseKept.raise _ n p (by simp) (.inr rfl))
  · exact h

theorem CloseKept.closeInterval (s : State) (n : Lane) (cause : CloseCause) (sender : Option Port) (p : Port) :
    CloseKept n (s.port p) ((closeInterval s n cause sender).port p) := by
  simp only [Machine.closeInterval, offerClose_port]
  split
  · exact .closeWithRecord ..
  · rw [State.modLane_port]
    exact .refl ..

theorem CloseKept.closeAndStop (s : State) (n : Lane) (cause : CloseCause) (p : Port) :
    CloseKept n (s.port p) ((closeAndStop s n cause).port p) := by
  simp only [Machine.closeAndStop, State.modLane_port]
  exact .closeInterval ..

theorem CloseKept.closeAndRestart (s : State) (n : Lane) (cause : CloseCause) (sender : Option Port) (p : Port) :
    CloseKept n (s.port p) ((closeAndRestart s n cause sender).port p) := by
  simp only [Machine.closeAndRestart, State.modLane_port]
  exact .closeInterval ..

theorem CloseKept.stopTimer (s : State) (n : Lane) (p : Port) : CloseKept n (s.port p) ((stopTimer s n).port p) := by
  unfold Machine.stopTimer
  split
  · exact .refl ..
  · rw [State.modLane_port]
    exact .refl ..
  · exact .closeAndStop ..

/-- CHECK_STOP closes the interval, and then takes the marks off and enters OFF (R84). -/
theorem stopChecker_eq (s : State) (n : Lane) : ∃ t, SlotStep s t ∧ IntervalStep s t ∧
    (∀ p, CloseKept n (s.port p) (t.port p)) ∧
    stopChecker s n = (t.unmark (.checker n)).modLane n fun l => l.modChecker fun c => discardReference c .off := by
  unfold stopChecker
  split
  · exact ⟨_, .closeAndStop .., .closeAndStop .., .closeAndStop s n _, rfl⟩
  · exact ⟨s, .refl s, .refl s, fun _ => .refl .., rfl⟩

/-! ### The shared tables -/

section
variable {f : Select} {c : Instr} {s u : State}

/-- Segment records change only by SEG_WRITE and SEG_CLEAR. -/
theorem Taken.record (h : Taken f c s u) (hc : ∀ p args, c ≠ .segWrite p args ∧ c ≠ .segClear p args) (i : Fin 64) :
    u.record i = s.record i := by
  cases h with
  | segWrite args => exact absurd rfl (hc f args).1
  | segClear b => exact absurd rfl (hc f [b]).2
  | laneTrigger _ n => exact (SlotStep.takeTrigger s n).record i
  | gateRetrigger _ n => exact (SlotStep.closeAndRestart s n _ _).record i
  | gateStop _ n => exact (SlotStep.stopTimer s n).record i
  | checkStop _ n =>
    obtain ⟨t, ht, -, -, he⟩ := stopChecker_eq s n
    rw [he, State.modLane_record, State.unmark_record, ht.record]
  | laneStart | checkStart => simp only [startLane, startChecker, State.modLane_record, State.mark_record]
  | laneHalt => simp only [haltLane, State.modLane_record, State.unmark_record]
  | portReset | wordWrite => rw [State.modPort_record]; rfl
  | eventClear | eventEnable | holdoffSet | segCursor | wordCursor | resultRead => rw [State.modPort_record]
  | _ => rfl

/-- Use sets change only where a walker starts or stops. -/
theorem Taken.useSet (h : Taken f c s u)
    (hc : ∀ p args, c ≠ .laneStart p args ∧ c ≠ .laneHalt p args ∧ c ≠ .checkStart p args ∧ c ≠ .checkStop p args)
    (i : Fin 64) : (u.seg i).useSet = (s.seg i).useSet := by
  have slot : ∀ {t : State}, SlotStep s t → (t.seg i).useSet = (s.seg i).useSet := fun ht => by
    simp only [State.seg, ht.segs]
  have write : ∀ (j : Fin 64) (r : Option Segment),
      ((s.setSeg j { s.seg j with record := r }).seg i).useSet = (s.seg i).useSet := fun j r => by
    rw [State.setSeg_seg]
    split
    · subst j; rfl
    · rfl
  cases h with
  | laneStart _ n => exact absurd rfl (hc f _).1
  | laneHalt _ n => exact absurd rfl (hc f _).2.1
  | checkStart _ n => exact absurd rfl (hc f _).2.2.1
  | checkStop _ n => exact absurd rfl (hc f _).2.2.2
  | segWrite _ _ j sg => rw [State.modPort_seg]; exact write j (some sg)
  | segClear _ _ j => exact write j none
  | laneTrigger _ n => exact slot (.takeTrigger s n)
  | gateRetrigger _ n => exact slot (.closeAndRestart s n _ _)
  | gateStop _ n => exact slot (.stopTimer s n)
  | portReset | wordWrite => rw [State.modPort_seg]; rfl
  | eventClear | eventEnable | holdoffSet | segCursor | wordCursor | resultRead => rw [State.modPort_seg]
  | _ => rfl

/-- The store changes only by WORD_WRITE, by the words that fit. -/
theorem Taken.store (h : Taken f c s u) : u.store = s.store ∨ ∃ n data m,
    c = .wordWrite f (n :: data) ∧ m = wordsFitting (s.port f.port).wordCursor n.toNat ∧
      u.store = storeWriteMany s.store (s.port f.port).wordCursor.val (wordsOfBytes m data) := by
  cases h with
  | wordWrite n data _ m fits => exact .inr ⟨n, data, m, rfl, fits, by rw [State.modPort_store]⟩
  | laneTrigger _ n => exact .inl (SlotStep.takeTrigger s n).store
  | gateRetrigger _ n => exact .inl (SlotStep.closeAndRestart s n _ _).store
  | gateStop _ n => exact .inl (SlotStep.stopTimer s n).store
  | checkStop _ n =>
    obtain ⟨t, ht, -, -, he⟩ := stopChecker_eq s n
    exact .inl (by rw [he, State.modLane_store, State.unmark_store, ht.store])
  | laneStart | checkStart => exact .inl (by simp only [startLane, startChecker, State.modLane_store, State.mark_store])
  | laneHalt => exact .inl (by simp only [haltLane, State.modLane_store, State.unmark_store])
  | portReset | segWrite => exact .inl (by rw [State.modPort_store]; rfl)
  | eventClear | eventEnable | holdoffSet | segCursor | wordCursor | resultRead => exact .inl (State.modPort_store ..)
  | _ => exact .inl rfl

/-- Holders change only by RESERVE, RELEASE and PORT_RESET. -/
theorem Taken.holders (h : Taken f c s u)
    (hc : ∀ p args, c ≠ .reserve p args ∧ c ≠ .release p args ∧ c ≠ .portReset p args) : u.holders = s.holders := by
  cases h with
  | reserve args => exact absurd rfl (hc f args).1
  | release args => exact absurd rfl (hc f args).2.1
  | portReset => exact absurd rfl (hc f []).2.2
  | laneTrigger _ n => exact (SlotStep.takeTrigger s n).holders
  | gateRetrigger _ n => exact (SlotStep.closeAndRestart s n _ _).holders
  | gateStop _ n => exact (SlotStep.stopTimer s n).holders
  | checkStop _ n =>
    obtain ⟨t, ht, -, -, he⟩ := stopChecker_eq s n
    rw [he, State.modLane_holders, State.unmark_holders, ht.holders]
  | laneStart | checkStart => simp only [startLane, startChecker, State.modLane_holders, State.mark_holders]
  | laneHalt => simp only [haltLane, State.modLane_holders, State.unmark_holders]
  | segWrite | wordWrite => exact State.modPort_holders ..
  | eventClear | eventEnable | holdoffSet | segCursor | wordCursor | resultRead => exact State.modPort_holders ..
  | _ => rfl

/-! ### The ports -/

theorem State.withStore_port (s : State) (m : Memory) (p : Port) : { s with store := m }.port p = s.port p := by
  cases p <;> rfl

theorem writeSegment_port (s : State) (i : Fin 64) (sg : Segment) (p : Port) :
    (writeSegment s i sg).port p = s.port p := by
  cases p <;> rfl

theorem clearSegment_port (s : State) (i : Fin 64) (p : Port) : (clearSegment s i).port p = s.port p := by
  cases p <;> rfl

theorem releaseAll_port (s : State) (q p : Port) : (releaseAll s q).port p = s.port p := by
  cases p <;> rfl

/-- What a command does to the port that did not send it: nothing, but that a close may move lane n's two flags and
cursor, and RESULT_CLEAR the cursor. -/
theorem Taken.other (h : Taken f c s u) :
    u.port (otherPort f.port) = s.port (otherPort f.port) ∨
    (∃ n : Lane, (c = .gateTrigger f [laneCode n] ∨ c = .gateStop f [laneCode n] ∨ c = .checkStop f [laneCode n]) ∧
      CloseKept n (s.port (otherPort f.port)) (u.port (otherPort f.port))) ∨
    ∃ (n : Lane) (g : ResultCursor → ResultCursor), c = .resultClear f [laneCode n] ∧
      u.port (otherPort f.port) = (s.port (otherPort f.port)).modResult n g := by
  have hp : ∀ (t : State) g, (t.modPort f.port g).port (otherPort f.port) = t.port (otherPort f.port) := fun t g => by
    simp
  cases h with
  | gateRetrigger _ n => exact .inr (.inl ⟨n, .inl rfl, .closeAndRestart ..⟩)
  | gateStop _ n => exact .inr (.inl ⟨n, .inr (.inl rfl), .stopTimer ..⟩)
  | checkStop _ n =>
    obtain ⟨t, -, -, ht, he⟩ := stopChecker_eq s n
    refine .inr (.inl ⟨n, .inr (.inr rfl), ?_⟩)
    rw [he, State.modLane_port, State.unmark_port]
    exact ht _
  | resultClear _ n => exact .inr (.inr ⟨n, chargeCleared (s.lane n).ring, rfl, by
      simp only [clearRing, State.modPorts_port, State.modLane_port]⟩)
  | laneTrigger _ n =>
    left
    unfold takeTrigger
    split
    · exact State.modLane_port ..
    · split
      · rfl
      · exact State.modLane_port ..
  | portReset => exact .inl ((hp _ _).trans (releaseAll_port ..))
  | wordWrite => exact .inl ((hp _ _).trans (State.withStore_port ..))
  | segWrite => exact .inl ((hp _ _).trans (writeSegment_port ..))
  | laneStart | checkStart => exact .inl (by simp only [startLane, startChecker, State.modLane_port, State.mark_port])
  | laneHalt => exact .inl (by simp only [haltLane, State.modLane_port, State.unmark_port])
  | reserve | release => exact .inl (State.setHolder_port ..)
  | readsFree => exact .inl (State.useFree_port ..)
  | injectSet | gateConfig => exact .inl (by simp only [State.useFree_port, State.modLane_port])
  | segClear => exact .inl (clearSegment_port ..)
  | reads => exact .inl rfl
  | eventClear | eventEnable | holdoffSet | segCursor | wordCursor | resultRead => exact .inl (hp _ _)
  | _ => exact .inl (State.modLane_port ..)

theorem releaseAll_holder (s : State) (p : Port) (r : Fin 20) :
    (releaseAll s p).holder r = if s.holder r = some p then none else s.holder r := by
  simp only [releaseAll, State.holder, Fin.getElem_fin, Vector.getElem_map]
  congr

/-- The other port's reservations stand (R166, R167, R177). -/
theorem Taken.holder_other (h : Taken f c s u) (r : Fin 20) :
    s.holder r = some (otherPort f.port) ↔ u.holder r = some (otherPort f.port) := by
  have keeps : u.holders = s.holders →
      (s.holder r = some (otherPort f.port) ↔ u.holder r = some (otherPort f.port)) := fun hu => by
    simp only [State.holder, hu]
  cases h with
  | reserve args s q free =>
    rw [State.setHolder_holder]
    split
    · subst r
      simp [free, (otherPort_ne f.port).symm]
    · rfl
  | release args s q held =>
    rw [State.setHolder_holder]
    split
    · subst r
      simp [held, (otherPort_ne f.port).symm]
    · rfl
  | portReset =>
    rw [State.modPort_holder, releaseAll_holder]
    split
    · rename_i hr
      simp [hr, (otherPort_ne f.port).symm]
    · rfl
  | laneTrigger _ n => exact keeps (SlotStep.takeTrigger s n).holders
  | gateRetrigger _ n => exact keeps (SlotStep.closeAndRestart s n _ _).holders
  | gateStop _ n => exact keeps (SlotStep.stopTimer s n).holders
  | checkStop _ n =>
    obtain ⟨t, ht, -, -, he⟩ := stopChecker_eq s n
    exact keeps (by rw [he, State.modLane_holders, State.unmark_holders, ht.holders])
  | laneStart | checkStart =>
    exact keeps (by simp only [startLane, startChecker, State.modLane_holders, State.mark_holders])
  | laneHalt => exact keeps (by simp only [haltLane, State.modLane_holders, State.unmark_holders])
  | segWrite | wordWrite => exact keeps (State.modPort_holders ..)
  | eventClear | eventEnable | holdoffSet | segCursor | wordCursor | resultRead =>
    exact keeps (State.modPort_holders ..)
  | _ => exact keeps rfl

/-- No command of a frame raises RESTARTED (R178). -/
theorem Taken.restarted (h : Taken f c s u) (p : Port) (hp : (u.port p).view.pending.getLsbD 25 = true) :
    (s.port p).view.pending.getLsbD 25 = true := by
  by_cases hq : p = f.port
  · subst hq
    have slot : ∀ {t : State}, SlotStep s t → (t.port f.port).view.pending.getLsbD 25 = true →
        (s.port f.port).view.pending.getLsbD 25 = true := fun ht h25 => (ht.port f.port).restarted ▸ h25
    cases h with
    | eventClear args _ e =>
      simp only [State.modPort_port, if_true, clearEvents, BitVec.getLsbD_and, Bool.and_eq_true] at hp
      exact hp.1
    | portReset => simp [State.modPort_port, resetPort] at hp
    | eventEnable | holdoffSet | segCursor | wordCursor | resultRead =>
      rw [State.modPort_port, if_pos rfl] at hp
      exact hp
    | segWrite =>
      rw [State.modPort_port, if_pos rfl, writeSegment_port] at hp
      exact hp
    | wordWrite =>
      rw [State.modPort_port, if_pos rfl, State.withStore_port] at hp
      exact hp
    | laneTrigger _ n => exact slot (.takeTrigger s n) hp
    | gateRetrigger _ n => exact slot (.closeAndRestart s n _ _) hp
    | gateStop _ n => exact slot (.stopTimer s n) hp
    | checkStop _ n =>
      obtain ⟨t, ht, -, -, he⟩ := stopChecker_eq s n
      rw [he, State.modLane_port, State.unmark_port] at hp
      exact slot ht hp
    | laneStart | checkStart => simpa only [startLane, startChecker, State.modLane_port, State.mark_port] using hp
    | laneHalt => simpa only [haltLane, State.modLane_port, State.unmark_port] using hp
    | resultClear =>
      simpa only [clearRing, State.modPorts_port, State.modLane_port, PortState.modResult] using hp
    | reserve | release => rwa [State.setHolder_port] at hp
    | readsFree => rwa [State.useFree_port] at hp
    | injectSet | gateConfig => rwa [State.useFree_port, State.modLane_port] at hp
    | segClear => rwa [clearSegment_port] at hp
    | planSet | planCheck => rwa [State.setPlan, State.modLane_port] at hp
    | reads => exact hp
    | _ => rwa [State.modLane_port] at hp
  · rw [eq_otherPort hq] at hp ⊢
    rcases h.other with h | ⟨n, -, h⟩ | ⟨n, g, -, h⟩
    · rwa [h] at hp
    · rwa [h.restarted] at hp
    · rwa [h] at hp

end

/-! ### What a whole frame leaves alone -/

section
variable {f : Select} {c : Instr} {s t : State}

/-- Where a frame leaves the store and the table it does not name, as its command leaves it over the state it found. -/
theorem FrameNext.segs (h : FrameNext f c s t) {P : Vector SegSlot 64 → Vector SegSlot 64 → Prop}
    (refl : ∀ v, P v v) (taken : ∀ v u, Taken f c v u → P v.segs u.segs) : P s.segs t.segs := by
  rcases h with rfl | ⟨-, -, h | ⟨len, u, r, h, rfl⟩⟩
  · exact refl _
  · rw [h.segs, State.startOwed_segs]
    exact refl _
  · simpa using taken _ _ h

theorem FrameNext.store (h : FrameNext f c s t) (hc : ∀ p args, c ≠ .wordWrite p args) : t.store = s.store := by
  rcases h with rfl | ⟨-, -, h | ⟨len, u, r, h, rfl⟩⟩
  · rfl
  · rw [h.store, State.startOwed_store]
  · rcases h.store with hu | ⟨n, data, -, hw, -⟩
    · simpa using hu
    · exact absurd hw (hc _ _)

theorem FrameNext.holders (h : FrameNext f c s t)
    (hc : ∀ p args, c ≠ .reserve p args ∧ c ≠ .release p args ∧ c ≠ .portReset p args) : t.holders = s.holders := by
  rcases h with rfl | ⟨-, -, h | ⟨len, u, r, h, rfl⟩⟩
  · rfl
  · rw [h.holders, State.startOwed_holders]
  · simpa using h.holders hc

theorem FrameNext.restarted (h : FrameNext f c s t) (p : Port) (hp : (t.port p).view.pending.getLsbD 25 = true) :
    (s.port p).view.pending.getLsbD 25 = true := by
  rcases h with rfl | ⟨-, -, h | ⟨len, u, r, h, rfl⟩⟩
  · exact hp
  · by_cases hq : p = f.port
    · subst hq
      rwa [h.flags 25 (by norm_num), State.startOwed_port] at hp
    · rwa [eq_otherPort hq, h.other, ← eq_otherPort hq, State.startOwed_port] at hp
  · have hu : (u.port p).view.pending.getLsbD 25 = true := by
      rw [State.respond_port] at hp
      split at hp
      · subst p; exact hp
      · exact hp
    have hs := h.restarted p hu
    rw [State.shifted_port] at hs
    split at hs
    · subst p; simpa using hs
    · simpa using hs

end

/-- A line event other than DEVICE_RESET touches no shared table, and raises no RESTARTED. -/
theorem LineNext.tables {c : Instr} {s t : State} (h : LineNext c s t) (hc : c ≠ .deviceReset) :
    t.segs = s.segs ∧ t.store = s.store ∧ t.holders = s.holders ∧
      ∀ p : Port, (t.port p).view.pending.getLsbD 25 = (s.port p).view.pending.getLsbD 25 := by
  have slot : ∀ {a b : State}, SlotStep a b → b.segs = a.segs ∧ b.store = a.store ∧ b.holders = a.holders ∧
      ∀ p : Port, (b.port p).view.pending.getLsbD 25 = (a.port p).view.pending.getLsbD 25 :=
    fun h => ⟨h.segs, h.store, h.holders, fun p => (h.port p).restarted⟩
  have lane : ∀ (n : Lane) (g : LaneState → LaneState), (s.modLane n g).segs = s.segs ∧
      (s.modLane n g).store = s.store ∧ (s.modLane n g).holders = s.holders ∧
      ∀ p : Port, ((s.modLane n g).port p).view.pending.getLsbD 25 = (s.port p).view.pending.getLsbD 25 :=
    fun n g => ⟨rfl, rfl, rfl, fun p => by rw [State.modLane_port]⟩
  cases h with
  | deviceReset => exact absurd rfl hc
  | resetNReturnsHigh => exact ⟨rfl, rfl, rfl, fun p => by cases p <;> rfl⟩
  | noEdge => exact ⟨rfl, rfl, rfl, fun _ => rfl⟩
  | trigLine n | gateLine n | pauseEnd n | sliceClose n | chainStart n => exact lane ..
  | trigger n level =>
    obtain ⟨h1, h2, h3, h4⟩ := lane n fun l => { l with trigLine := level }
    obtain ⟨k1, k2, k3, k4⟩ := slot (SlotStep.takeTrigger (s.modLane n fun l => { l with trigLine := level }) n)
    exact ⟨k1.trans h1, k2.trans h2, k3.trans h3, fun p => (k4 p).trans (h4 p)⟩
  | transmit n _ _ slot' => exact slot (.transmit slot')
  | wordLimit n => exact slot (.wordLimitIfReached s n)
  | receive m w _ _ word => exact slot (.deliver word)
  | tick =>
    have ht := slotStep_ticks s
    generalize tickTimer (tickTimer (tickTimer (tickTimer s 0) 1) 2) 3 = u at ht ⊢
    obtain ⟨h1, h2, h3, h4⟩ := slot ht
    exact ⟨h1, h2, h3, fun p => by rw [State.modPorts_port]; exact h4 p⟩
  | intervalExpiry n => exact slot (.intervalExpiryIfDue s n)
  | holdoffExpiry q =>
    refine ⟨State.modPort_segs .., State.modPort_store .., State.modPort_holders .., fun p => ?_⟩
    rw [State.modPort_port]
    split
    · subst p; rfl
    · rfl

/-- Settles O57: of a frame, its command is the one that the table names; of a line event, none is. -/
theorem onlyTheirCommandsChangeTheTables : Obligations.OnlyTheirCommandsChangeTheTables := by
  intro c s t h hc
  rcases exec_cases h with ⟨f, bs, -, hf⟩ | hl
  · refine ⟨fun hw i => ?_, fun hw i => ?_, hf.store, hf.holders, hf.restarted⟩
    · exact hf.segs (P := fun v u => (u[i]).record = (v[i]).record) (fun _ => rfl) fun v u hu => hu.record hw i
    · exact hf.segs (P := fun v u => (u[i]).useSet = (v[i]).useSet) (fun _ => rfl) fun v u hu => hu.useSet hw i
  · obtain ⟨hseg, hstore, hhold, h25⟩ := hl.tables hc
    refine ⟨fun _ i => ?_, fun _ i => ?_, fun _ => hstore, fun _ => hhold, fun p hp => h25 p ▸ hp⟩
    · simp only [State.record, State.seg, hseg]
    · simp only [State.seg, hseg]

/-- What a frame does to the port that did not send it (as `Taken.other`, over the whole frame). -/
theorem FrameNext.other {f : Select} {c : Instr} {s t : State} (h : FrameNext f c s t) :
    t.port (otherPort f.port) = s.port (otherPort f.port) ∨
    (∃ n : Lane, (c = .gateTrigger f [laneCode n] ∨ c = .gateStop f [laneCode n] ∨ c = .checkStop f [laneCode n]) ∧
      CloseKept n (s.port (otherPort f.port)) (t.port (otherPort f.port))) ∨
    ∃ (n : Lane) (g : ResultCursor → ResultCursor), c = .resultClear f [laneCode n] ∧
      t.port (otherPort f.port) = (s.port (otherPort f.port)).modResult n g := by
  rcases h with rfl | ⟨-, -, h | ⟨len, u, r, h, rfl⟩⟩
  · exact .inl rfl
  · exact .inl (by rw [h.other, State.startOwed_port])
  · have ht : (u.respond f.port r).port (otherPort f.port) = u.port (otherPort f.port) := by simp
    have hs : ((s.startOwed f.port).shifted f.port len).port (otherPort f.port) = s.port (otherPort f.port) := by simp
    rw [ht, ← hs]
    exact h.other

theorem FrameNext.holder_other {f : Select} {c : Instr} {s t : State} (h : FrameNext f c s t) (r : Fin 20) :
    s.holder r = some (otherPort f.port) ↔ t.holder r = some (otherPort f.port) := by
  rcases h with rfl | ⟨-, -, h | ⟨len, u, r', h, rfl⟩⟩
  · rfl
  · simp only [State.holder, h.holders, State.startOwed_holders]
  · simpa using h.holder_other r

/-- Settles O59: what a frame does to the other port is `FrameNext.other`. -/
theorem portsDoNotReachEachOther : Obligations.PortsDoNotReachEachOther := by
  rintro c f bs s t _ _ hc h rfl rfl
  have hf := exec_frameNext hc h
  rcases hf.other with he | ⟨n, hn, hk⟩ | ⟨n, g, hn, he⟩
  · rw [he]
    exact ⟨rfl, rfl, rfl, rfl, rfl, rfl, rfl, fun _ => id, fun _ => .inl, fun _ => .inl rfl, hf.holder_other⟩
  · refine ⟨hk.response, hk.shiftedOut, hk.segCursor, hk.wordCursor, hk.enable, hk.length, hk.holdoff, hk.raised,
      fun k hp => (hk.flags k hp).imp_right fun hb => ⟨n, hb, hn⟩, fun m => ?_, hf.holder_other⟩
    by_cases hm : m = n
    · subst m
      rcases hn with hn | hn | hn
      · exact .inr (.inl hn)
      · exact .inr (.inr (.inl hn))
      · exact .inr (.inr (.inr (.inl hn)))
    · exact .inl (hk.results m hm)
  · rw [he]
    refine ⟨rfl, rfl, rfl, rfl, rfl, rfl, rfl, fun _ => id, fun _ => .inl, fun m => ?_, hf.holder_other⟩
    by_cases hm : m = n
    · subst m
      exact .inr (.inr (.inr (.inr hn)))
    · exact .inl (modResult_other hm g)

end Sys2Proof.Machine
end

section
/-!
PROOF. Invariants of the part: one induction step for all that rest on the segments, the store and the lanes
(`step_keeps`), and the ranges of what is stored (R2, R3, R29, R61, R118).
-/

namespace Sys2Proof.Machine

/-! ### One step, for every invariant of the segments, the store and the lanes -/

/-- A property of states that speaks of the segments, the store and the lanes alone. -/
def OfParts (P : State → Prop) : Prop :=
  ∀ s t : State, t.segs = s.segs → t.store = s.store → t.lanes = s.lanes → P s → P t

/-- Such a property is kept by every step, if what earlier commands owe, every command and every line event keep it. -/
theorem step_keeps {P : State → Prop} (parts : OfParts P) (owed : ∀ s p, P s → P (s.startOwed p))
    (taken : ∀ f c s u, Taken f c s u → P s → P u) (line : ∀ c s u, LineNext c s u → P s → P u) {s t : State}
    (h : step s = .next t) (hs : P s) : P t := by
  unfold step at h
  split at h
  · cases h
    exact hs
  · rename_i c rest _
    have hq : P { s with pending := rest } := parts s _ rfl rfl rfl hs
    rcases exec_cases h with ⟨f, bs, -, rfl | ⟨-, -, hr | ⟨len, u, r, hu, rfl⟩⟩⟩ | hl
    · exact hq
    · exact parts _ _ hr.segs hr.store hr.lanes (owed _ _ hq)
    · refine parts u _ (by simp) (by simp) (by simp) (taken _ _ _ _ hu ?_)
      exact parts _ _ (by simp) (by simp) (by simp) (owed _ f.port hq)
    · exact line _ _ _ hl hq

/-! ### The store's canonical form -/

theorem StoreCanonical.ofParts : OfParts StoreCanonical := fun _ _ _ h _ hs => by
  unfold StoreCanonical at *
  rwa [h]

theorem length_wordsOfBytes (n : Nat) (bs : List Byte) : (wordsOfBytes n bs).length = n := by
  induction n generalizing bs with
  | zero => rfl
  | succ n ih => simp [wordsOfBytes, ih]

/-- The words that fit end within the store (R20). -/
theorem StoreCanonical.taken {f : Select} {c : Instr} {s u : State} (h : Taken f c s u) (hs : StoreCanonical s) :
    StoreCanonical u := by
  unfold StoreCanonical at *
  rcases h.store with hu | ⟨n, data, m, -, hm, hu⟩
  · rwa [hu]
  · rw [hu]
    refine storeWriteMany_wf hs ?_
    have := (s.port f.port).wordCursor.isLt
    rw [length_wordsOfBytes, hm, wordsFitting, Config.storeSize]
    omega

theorem StoreCanonical.line {c : Instr} {s u : State} (h : LineNext c s u) (hs : StoreCanonical s) :
    StoreCanonical u := by
  by_cases hc : c = .deviceReset
  · subst hc
    cases h with
    | deviceReset => exact reset_store_wf
    | noEdge => exact hs
  · unfold StoreCanonical at *
    rwa [(h.tables hc).2.1]

/-! ### The ranges of one lane -/

/-- The ranges of what lane n stores (R29, R61, R118). -/
structure LaneInRange (n : Lane) (l : LaneState) : Prop where
  verdict : l.plan.valid = true ↔ l.plan.verdict = .valid
  inject : InjectInRange l.inject
  alarm : ThresholdInRange l.timer.config.alarm
  severe : ThresholdInRange l.timer.config.severe
  trigger : l.timer.config.trigger ≠ .chain n

theorem storedInRange_iff {s : State} : StoredInRange s ↔
    (∀ (i : Fin 64) (sg : Segment), s.record i = some sg → SegmentInRange sg) ∧ ∀ n, LaneInRange n (s.lane n) := by
  refine and_congr_right fun _ => forall_congr' fun n => ⟨?_, ?_⟩
  · rintro ⟨h1, h2, h3, h4, h5⟩
    exact ⟨h1, h2, h3, h4, h5⟩
  · rintro ⟨h1, h2, h3, h4, h5⟩
    exact ⟨h1, h2, h3, h4, h5⟩

/-- A lane that keeps its timer's configuration, and whose plan and injection unit stay in range. -/
theorem LaneInRange.congr {n : Lane} {l k : LaneState} (h : LaneInRange n l)
    (plan : k.plan.valid = true ↔ k.plan.verdict = .valid) (inject : InjectInRange k.inject)
    (config : k.timer.config = l.timer.config) : LaneInRange n k :=
  ⟨plan, inject, config ▸ h.alarm, config ▸ h.severe, config ▸ h.trigger⟩

theorem LaneInRange.kept {n : Lane} {l k : LaneState} (h : LaneInRange n l) (kept : LaneKept l k)
    (inject : k.inject = l.inject) : LaneInRange n k :=
  h.congr (kept.plan ▸ h.verdict) (inject ▸ h.inject) kept.timerConfig

theorem StoredInRange.ofParts : OfParts StoredInRange := fun s t hseg _ hlane hs => by
  rw [storedInRange_iff] at *
  have hr : ∀ i, t.record i = s.record i := fun i => by simp only [State.record, State.seg, hseg]
  have hl : ∀ n, t.lane n = s.lane n := fun n => by simp only [State.lane, hlane]
  exact ⟨fun i sg hi => hs.1 i sg (hr i ▸ hi), fun n => hl n ▸ hs.2 n⟩

/-- The records as they were, and every lane in range. -/
theorem StoredInRange.lanes {s t : State} (hs : StoredInRange s) (record : ∀ i, t.record i = s.record i)
    (lanes : ∀ n, LaneInRange n (s.lane n) → LaneInRange n (t.lane n)) : StoredInRange t := by
  rw [storedInRange_iff] at *
  exact ⟨fun i sg hi => hs.1 i sg (record i ▸ hi), fun n => lanes n (hs.2 n)⟩

theorem StoredInRange.modLane {s : State} (hs : StoredInRange s) (n : Lane) {f : LaneState → LaneState}
    (h : LaneInRange n (s.lane n) → LaneInRange n (f (s.lane n))) : StoredInRange (s.modLane n f) :=
  hs.lanes (fun _ => rfl) fun m hm => by
    rw [State.modLane_lane]
    split
    · subst m; exact h hm
    · exact hm

/-- Slots, words, ticks and closes that leave the injection units alone. -/
theorem StoredInRange.slot {s t : State} (hs : StoredInRange s) (slot : SlotStep s t) (gens : GenStep s t) :
    StoredInRange t :=
  hs.lanes slot.record fun n hn => hn.kept (slot.lane n) (gens.lane n).inject

theorem StoredInRange.genSlot {s t : State} {n : Lane} (h : GenSlot n s t) (hs : StoredInRange s) :
    StoredInRange t :=
  hs.lanes h.toSlotStep.record fun m hm => by
    by_cases hmn : m = n
    · subst m
      exact hm.congr ((h.lane n).plan ▸ hm.verdict) (h.injects hm.inject) (h.lane n).timerConfig
    · exact hm.kept (h.lane m) (h.others m hmn).inject

/-- A segment record replaced by one in range, or taken away (R2, R3, R34). -/
theorem StoredInRange.replace {s : State} (hs : StoredInRange s) (i : Fin 64) {slot : SegSlot}
    (h : ∀ sg, slot.record = some sg → SegmentInRange sg) : StoredInRange (invalidate (s.setSeg i slot) i) := by
  rw [storedInRange_iff] at *
  refine ⟨fun j sg hj => ?_, fun n => ?_⟩
  · have hj' : (s.setSeg i slot).record j = some sg := hj
    rw [State.setSeg_record] at hj'
    split at hj'
    · exact h sg hj'
    · exact hs.1 j sg hj'
  · have hn := hs.2 n
    simp only [invalidate, State.lane, Fin.getElem_fin, Vector.getElem_map]
    split
    · exact hn.congr (by simp) hn.inject rfl
    · exact hn

/-! ### What the settings store -/

theorem storeThreshold_inRange (tm : BitVec 16) (tx : Byte) : ThresholdInRange (storeThreshold tm tx) := by
  constructor
  · simp only [storeThreshold]
    split
    · exact .inl rfl
    · split
      · exact .inr (by decide)
      · exact .inr (by omega)
  · simp only [storeThreshold]
    split
    · decide
    · omega

theorem gateTriggerOfBytes_ne_own {n : Lane} {trigger chain : Byte} {t : GateTrigger}
    (h : gateTriggerOfBytes n trigger chain = some t) : t ≠ .chain n := by
  unfold gateTriggerOfBytes at h
  split at h
  case h_7 =>
    split at h
    · split at h <;> cases h
      simpa using ‹¬ _›
    · cases h
  all_goals cases h
  all_goals simp

/-- The configuration that GATE_CONFIG stores is in range (R118). -/
theorem timerConfigOfBytes_inRange {n : Lane} {bs : List Byte} {cfg : TimerConfig}
    (h : timerConfigOfBytes n bs = some cfg) :
    ThresholdInRange cfg.alarm ∧ ThresholdInRange cfg.severe ∧ cfg.trigger ≠ .chain n := by
  unfold timerConfigOfBytes at h
  split at h <;> cases h
  exact ⟨storeThreshold_inRange .., storeThreshold_inRange .., gateTriggerOfBytes_ne_own ‹_›⟩

/-- The setting that INJECT_SET stores is in range, with its period count at 0 (R66). -/
theorem injectionOfBytes_inRange {kind bit len : Byte} {period : Nat} {x : Injection}
    (h : injectionOfBytes kind bit len period = some x) (hp : period < 2 ^ 24) (u : InjectUnit) :
    InjectInRange { u with setting := x, periodCount := 0 } := by
  have hperiod : 2 ≤ (storePeriod period).toNat := by
    unfold storePeriod
    split
    · decide
    · rw [BitVec.toNat_ofNat, Nat.mod_eq_of_lt hp]
      omega
  unfold injectionOfBytes at h
  split at h
  · cases h
    rfl
  · split at h <;> cases h
    rfl
  · split at h <;> cases h
    rename_i hb
    refine ⟨rfl, ?_, ?_⟩ <;> rw [BitVec.toNat_ofNat, Nat.mod_eq_of_lt (by omega)]
    · exact hb.2.1
    · exact hb.2.2
  · split at h <;> cases h
    exact ⟨hperiod, by simp; omega⟩
  · cases h

/-- A validation records VALID with the verdict VALID alone (R29). -/
theorem validated_verdict (record : Fin 64 → Option Segment) (pl : Plan) :
    (validated record pl).valid = true ↔ (validated record pl).verdict = .valid := by
  simp [validated]

/-- The reset lane is in range (R38, R116, R117). -/
theorem resetLane_inRange (n : Lane) (trig gate : Level) : LaneInRange n (Reset.lane n trig gate) :=
  ⟨by simp [Reset.lane, Reset.plan], rfl, ⟨.inl rfl, Nat.zero_le _⟩, ⟨.inl rfl, Nat.zero_le _⟩, by
    simp [Reset.lane, Reset.timer]⟩

theorem deviceResetState_lane (s : State) (phase : ResetPhase) (n : Lane) :
    (deviceResetState s phase).lane n = Reset.lane n (s.lane n).trigLine (s.lane n).gateLine := by
  simp [deviceResetState, State.lane]

theorem deviceResetState_seg (s : State) (phase : ResetPhase) (i : Fin 64) :
    (deviceResetState s phase).seg i = { record := none, useSet := 0 } := by
  simp [deviceResetState, State.reset, State.seg]

theorem LaneKept.armTimer (l : LaneState) : LaneKept l (armTimer l) := by
  unfold Machine.armTimer
  split
  · exact .startInterval _
  · exact .setTimer ..

theorem LaneKept.chainStartIfDue (l : LaneState) : LaneKept l (chainStartIfDue l) := by
  unfold Machine.chainStartIfDue
  split
  · exact .startInterval _
  · exact .refl _

/-! ### Every step -/

theorem StoredInRange.taken {f : Select} {c : Instr} {s u : State} (h : Taken f c s u) (hs : StoredInRange s) :
    StoredInRange u := by
  have port : ∀ {t : State} {p : Port} {g : PortState → PortState}, StoredInRange t → StoredInRange (t.modPort p g) :=
    fun ht => ofParts _ _ (by simp) (by simp) (by simp) ht
  have kept : ∀ {n : Lane} {g : LaneState → LaneState}, LaneKept (s.lane n) (g (s.lane n)) →
      (g (s.lane n)).inject = (s.lane n).inject → StoredInRange (s.modLane n g) :=
    fun hk hi => hs.modLane _ fun hn => hn.kept hk hi
  have same : ∀ {n : Lane} {g : LaneState → LaneState}, (g (s.lane n)).plan = (s.lane n).plan →
      (g (s.lane n)).inject = (s.lane n).inject → (g (s.lane n)).timer.config = (s.lane n).timer.config →
      StoredInRange (s.modLane n g) :=
    fun hp hi hc => hs.modLane _ fun hn => hn.congr (hp ▸ hn.verdict) (hi ▸ hn.inject) hc
  cases h with
  | reads => exact hs
  | readsFree => exact hs
  | eventClear | eventEnable | holdoffSet | segCursor | wordCursor | resultRead => exact port hs
  | portReset => exact port (ofParts s _ rfl rfl rfl hs)
  | reserve | release => exact ofParts s _ rfl rfl rfl hs
  | segWrite args _ i sg cursor record =>
    exact port (hs.replace i fun sg' h => by cases h; exact segmentInRange_of_bytes record)
  | segClear b _ i => exact hs.replace i fun _ h => by cases h
  | wordWrite =>
    exact port (hs.lanes (fun _ => rfl) fun _ h => h)
  | planSet args _ n pl => exact hs.modLane n fun hn => hn.congr (validated_verdict ..) hn.inject rfl
  | planCheck _ n => exact hs.modLane n fun hn => hn.congr (validated_verdict ..) hn.inject rfl
  | laneStart _ n =>
    exact hs.lanes (fun i => by simp [startLane]) fun m hm => by
      simp only [startLane, State.modLane_lane, State.mark_lane]
      split
      · subst m; exact hm.congr hm.verdict hm.inject rfl
      · exact hm
  | laneTrigger _ n _ state => exact .genSlot (.takeTrigger s n state) hs
  | laneHalt _ n =>
    exact hs.lanes (fun i => by simp [haltLane]) fun m hm => by
      simp only [haltLane, State.modLane_lane, State.unmark_lane]
      split
      · subst m; exact hm.congr hm.verdict hm.inject rfl
      · exact hm
  | injectSet args _ n x _ setting =>
    exact hs.modLane n fun hn => hn.congr hn.verdict (injectionOfBytes_inRange setting (fieldAt_lt args 4 3) _) rfl
  | injectTotalsClear _ n => exact hs.modLane n fun hn => hn.congr hn.verdict (hn.inject.congr rfl rfl) rfl
  | sigClear | routeSet | totalsClear => exact same rfl rfl rfl
  | checkConfig _ n =>
    refine same ?_ ?_ ?_ <;> unfold configureChecker <;> split <;> rfl
  | checkStart _ n =>
    exact hs.lanes (fun i => by simp [startChecker]) fun m hm => by
      simp only [startChecker, State.modLane_lane, State.mark_lane]
      split
      · subst m; exact hm.congr hm.verdict hm.inject rfl
      · exact hm
  | checkStop _ n =>
    obtain ⟨t, ht, hi, -, he⟩ := stopChecker_eq s n
    rw [he]
    refine (hs.slot ht hi.gens).lanes (fun i => by simp) fun m hm => ?_
    simp only [State.modLane_lane, State.unmark_lane]
    split
    · subst m; exact hm.congr hm.verdict hm.inject rfl
    · exact hm
  | gateConfig args _ n cfg _ config =>
    obtain ⟨ha, hv, ht⟩ := timerConfigOfBytes_inRange config
    exact hs.modLane n (f := fun l => { l with timer := { l.timer with config := cfg } }) fun hn =>
      ⟨hn.verdict, hn.inject, ha, hv, ht⟩
  | gateArm _ n => exact kept (.armTimer _) (IntervalKept.armTimer _).inject
  | gateStart _ n => exact kept (.startInterval _) rfl
  | gateRetrigger _ n => exact hs.slot (.closeAndRestart ..) (IntervalStep.closeAndRestart ..).gens
  | gateStop _ n => exact hs.slot (.stopTimer ..) (IntervalStep.stopTimer ..).gens
  | resultClear _ n => exact ofParts _ _ rfl rfl rfl (same (g := fun l => { l with ring := _ }) rfl rfl rfl)

theorem StoredInRange.word {s t : State} {n : Lane} (slot : SlotStep s t) (word : WordStep n s t)
    (hs : StoredInRange s) : StoredInRange t := hs.slot slot word.gens

theorem StoredInRange.line {c : Instr} {s u : State} (h : LineNext c s u) (hs : StoredInRange s) :
    StoredInRange u := by
  have timing : ∀ {t : State}, SlotStep s t → IntervalStep s t → StoredInRange t := fun ht hi => hs.slot ht hi.gens
  have kept : ∀ {n : Lane} {g : LaneState → LaneState}, LaneKept (s.lane n) (g (s.lane n)) →
      IntervalKept (s.lane n) (g (s.lane n)) → StoredInRange (s.modLane n g) :=
    fun hk hi => timing (.modLane _ _ hk) (.modLane _ _ hi)
  cases h with
  | deviceReset =>
    rw [storedInRange_iff]
    refine ⟨fun i sg h => ?_, fun n => ?_⟩
    · rw [State.record, deviceResetState_seg] at h
      cases h
    · rw [deviceResetState_lane]
      exact resetLane_inRange ..
  | resetNReturnsHigh => exact ofParts s _ rfl rfl rfl hs
  | noEdge => exact hs
  | trigLine n => exact hs.modLane n fun hn => hn.congr hn.verdict hn.inject rfl
  | trigger n level _ state =>
    exact .genSlot (.takeTrigger _ n (by simpa using state))
      (hs.modLane n (f := fun l => { l with trigLine := level }) fun hn => hn.congr hn.verdict hn.inject rfl)
  | gateLine n level =>
    have hk := IntervalKept.gateEdgeTaken level (s.lane n)
    refine hs.modLane n fun hn => hn.congr ?_ (hk.inject ▸ hn.inject) ?_
    · unfold gateEdgeTaken
      simp only
      split <;> exact hn.verdict
    · unfold gateEdgeTaken
      simp only
      split <;> rfl
  | transmit n _ _ slot => exact transmit_keeps (fun _ _ => .genSlot) (fun _ _ _ => .word) slot hs
  | pauseEnd n => exact .genSlot (.pauseEnd s n) hs
  | wordLimit n => exact .genSlot (.wordLimitIfReached s n) hs
  | receive m w _ _ word => exact deliver_keeps (fun _ _ _ => .word) word hs
  | tick =>
    have ht := timing (slotStep_ticks s) (intervalStep_ticks s)
    generalize tickTimer (tickTimer (tickTimer (tickTimer s 0) 1) 2) 3 = t at ht ⊢
    exact ofParts t _ rfl rfl rfl ht
  | sliceClose n => exact kept (.sliceCloseIfDue _) (.sliceCloseIfDue _)
  | intervalExpiry n => exact timing (.intervalExpiryIfDue ..) (.intervalExpiryIfDue ..)
  | chainStart n => exact kept (.chainStartIfDue _) (.chainStartIfDue _)
  | holdoffExpiry p => exact ofParts _ _ (by simp) (by simp) (by simp) hs

/-- Settles O50: both invariants speak of the segments, the store and the lanes, and every command and line event keeps
them. -/
theorem storedDataStaysInRange : Obligations.StoredDataStaysInRange := fun _ _ h =>
  ⟨step_keeps StoreCanonical.ofParts (fun _ _ hs => hs) (fun _ _ _ _ => .taken) (fun _ _ _ => .line) h,
    step_keeps StoredInRange.ofParts (fun s p hs => hs.slot (.startOwed s p) (IntervalStep.startOwed s p).gens)
      (fun _ _ _ _ => .taken) (fun _ _ _ => .line) h⟩

end Sys2Proof.Machine
end

section
/-!
PROOF. The walkers (R12, R26 to R28, R35): a validated plan is sound, marks are put on and taken off, and every step
keeps each walker within the defined segments that it marks.
-/

namespace Sys2Proof.Machine

/-! ### Use sets -/

theorem Walker.bit_lt (w : Walker) : w.bit < 8 := by
  cases w <;> simp only [Walker.bit] <;> omega

theorem Walker.bit_inj {w v : Walker} (h : w.bit = v.bit) : w = v := by
  cases w <;> cases v <;> simp only [Walker.bit] at h
  case generator.generator => exact congrArg _ (Fin.ext h)
  case checker.checker => exact congrArg _ (Fin.ext (by omega))
  all_goals omega

theorem addUser_getLsbD (u : BitVec 8) (w : Walker) {k : Nat} (hk : k < 8) :
    (addUser u w).getLsbD k = (u.getLsbD k || decide (w.bit = k)) := by
  simp only [addUser, BitVec.getLsbD_or, BitVec.getLsbD_ofNat, Nat.testBit_two_pow, hk, decide_true, Bool.true_and]

theorem removeUser_getLsbD (u : BitVec 8) (w : Walker) {k : Nat} (hk : k < 8) :
    (removeUser u w).getLsbD k = (u.getLsbD k && !decide (w.bit = k)) := by
  simp only [removeUser, BitVec.getLsbD_and, BitVec.getLsbD_not, BitVec.getLsbD_ofNat, Nat.testBit_two_pow, hk,
    decide_true, Bool.true_and]

/-! ### Validation -/

theorem addSegment_getLsbD (set : BitVec 64) (i j : Fin 64) :
    (addSegment set i).getLsbD j.val = (set.getLsbD j.val || decide (j = i)) := by
  have hij : i.val = j.val ↔ j = i := ⟨fun h => Fin.ext h.symm, fun h => h ▸ rfl⟩
  simp only [addSegment, BitVec.getLsbD_or, BitVec.getLsbD_ofNat, Nat.testBit_two_pow, j.isLt, decide_true,
    Bool.true_and, hij]

/-- The members of a set of segments after one is added. -/
theorem mem_addSegment {set : BitVec 64} {i j : Fin 64} :
    (addSegment set i).getLsbD j.val = true ↔ set.getLsbD j.val = true ∨ j = i := by
  rw [addSegment_getLsbD, Bool.or_eq_true, decide_eq_true_eq]

/-- The members of a set of segments. -/
def segMembers (set : BitVec 64) : Finset (Fin 64) := Finset.univ.filter fun i => set.getLsbD i.val = true

@[simp] theorem mem_segMembers {set : BitVec 64} {i : Fin 64} : i ∈ segMembers set ↔ set.getLsbD i.val = true := by
  simp [segMembers]

theorem segMembers_addSegment (set : BitVec 64) (i : Fin 64) :
    segMembers (addSegment set i) = insert i (segMembers set) := by
  ext j
  rw [mem_segMembers, mem_addSegment, Finset.mem_insert, mem_segMembers, or_comm]

/-- A set of segments each of which is defined, with its next in the set or at `cur`, where a walk goes on. -/
def WalkedTo (record : Fin 64 → Option Segment) (set : BitVec 64) (cur : Fin 64) : Prop :=
  ∀ i : Fin 64, set.getLsbD i.val = true →
    ∃ sg, record i = some sg ∧ ∀ t, sg.next = some t → set.getLsbD t.val = true ∨ t = cur

/-- Whether the walk of R26 has stopped at a defined segment: then its set is defined and closed under next links. -/
def WalkEnds (record : Fin 64 → Option Segment) (walk : BitVec 64 × Option (Fin 64)) : Prop :=
  walk.2 = none → ∀ i : Fin 64, walk.1.getLsbD i.val = true →
    ∃ sg, record i = some sg ∧ ∀ t, sg.next = some t → walk.1.getLsbD t.val = true

/-- The walk adds its segments, and 64 steps suffice: each but the last adds an index (R26). -/
theorem reachWalk_sound (record : Fin 64 → Option Segment) (fuel : Nat) (cur : Fin 64) (set : BitVec 64)
    (fresh : set.getLsbD cur.val = false) (enough : 64 ≤ fuel + (segMembers set).card)
    (walked : WalkedTo record set cur) :
    WalkEnds record (reachWalk record fuel cur set) ∧
      ∀ i : Fin 64, set.getLsbD i.val = true ∨ i = cur → (reachWalk record fuel cur set).1.getLsbD i.val = true := by
  induction fuel generalizing cur set with
  | zero =>
    have hall : segMembers set = Finset.univ := Finset.eq_univ_of_card _ (by
      have := Finset.card_le_univ (segMembers set)
      simp only [Fintype.card_fin] at this ⊢
      omega)
    have hin : cur ∈ segMembers set := hall ▸ Finset.mem_univ cur
    rw [mem_segMembers, fresh] at hin
    cases hin
  | succ fuel ih =>
    have grown : ∀ i : Fin 64, set.getLsbD i.val = true ∨ i = cur → (addSegment set cur).getLsbD i.val = true :=
      fun i hi => mem_addSegment.mpr hi
    have members : ∀ i : Fin 64, (addSegment set cur).getLsbD i.val = true → set.getLsbD i.val = true ∨ i = cur :=
      fun i hi => mem_addSegment.mp hi
    rw [reachWalk]
    split
    · exact ⟨fun h => (by cases h), grown⟩
    · rename_i sg hsg
      split
      · rename_i hnext
        refine ⟨fun _ i hi => ?_, grown⟩
        rcases members i hi with hi | rfl
        · obtain ⟨sg', hr, ht⟩ := walked i hi
          exact ⟨sg', hr, fun t h => grown t (ht t h)⟩
        · exact ⟨sg, hsg, fun t h => by rw [hnext] at h; cases h⟩
      · rename_i t hnext
        have closing : WalkedTo record (addSegment set cur) t := fun i hi => by
          rcases members i hi with hi | rfl
          · obtain ⟨sg', hr, ht⟩ := walked i hi
            exact ⟨sg', hr, fun u h => .inl (grown u (ht u h))⟩
          · exact ⟨sg, hsg, fun u h => .inr (by rw [hnext] at h; exact (Option.some.inj h).symm)⟩
        split
        · rename_i hback
          refine ⟨fun _ i hi => ?_, grown⟩
          obtain ⟨sg', hr, ht⟩ := closing i hi
          refine ⟨sg', hr, fun u h => ?_⟩
          rcases ht u h with h' | rfl
          · exact h'
          · exact hback
        · rename_i hback
          have hcard : (segMembers (addSegment set cur)).card = (segMembers set).card + 1 := by
            rw [segMembers_addSegment, Finset.card_insert_of_notMem (by rw [mem_segMembers, fresh]; decide)]
          obtain ⟨hends, hadds⟩ := ih t (addSegment set cur) (Bool.not_eq_true _ ▸ hback) (by omega) closing
          exact ⟨hends, fun i hi => hadds i (.inl (grown i hi))⟩

/-- A SEQUENCE plan found VALID: its walk has stopped, at a set that holds the anchor (R27). -/
theorem validateSequence_valid {record : Fin 64 → Option Segment} {pl : Plan} {walk : BitVec 64 × Option (Fin 64)}
    (h : (validateSequence record pl walk).verdict = .valid) :
    (validateSequence record pl walk).reach = walk.1 ∧ walk.2 = none ∧ walk.1.getLsbD pl.anchor.val = true := by
  unfold validateSequence at h ⊢
  split at h
  · cases h
  · split at h
    · split at h
      · cases h
      · split at h
        · split at h
          · cases h
          · simp_all
        · cases h
    · cases h

/-- A FREE-RUN plan found VALID: segment first is PRBS (R28). -/
theorem validateFreeRun_valid {record : Fin 64 → Option Segment} {pl : Plan}
    (h : (validateFreeRun record pl).verdict = .valid) :
    (validateFreeRun record pl).reach = addSegment 0 pl.first ∧
      ∃ sg o invert seed, record pl.first = some sg ∧ sg.kind = .prbs o invert seed := by
  unfold validateFreeRun at h ⊢
  split at h
  · cases h
  · rename_i sg hsg
    split at h
    · rename_i hk
      cases hkind : sg.kind with
      | prbs o invert seed => exact ⟨rfl, sg, o, invert, seed, hsg, hkind⟩
      | _ => simp [hkind, SegKind.isPrbs] at hk
    · cases h

/-- A plan that a validation finds VALID is sound (R26 to R29). -/
theorem planSound_validated (s : State) (pl : Plan) : PlanSound s (validated s.record pl) := by
  intro hv
  have hverdict : (validation s.record pl).verdict = .valid := by simpa [validated] using hv
  have hmode : (validated s.record pl).mode = pl.mode := rfl
  have hreach : (validated s.record pl).reach = (validation s.record pl).reach := rfl
  rw [hmode, hreach]
  cases hm : pl.mode with
  | sequence =>
    simp only [validation, hm] at hverdict ⊢
    obtain ⟨hends, hadds⟩ := reachWalk_sound s.record 64 pl.first 0 (by simp) (by omega) fun i hi => by simp at hi
    obtain ⟨hr, hstopped, hanchor⟩ := validateSequence_valid hverdict
    have hclosed := hends hstopped
    rw [hr]
    refine ⟨hadds pl.first (.inr rfl), fun i hi => ?_, fun _ => ⟨hanchor, fun i sg t hi hsg ht => ?_⟩,
      fun h => by cases h⟩
    · obtain ⟨sg, hsg, -⟩ := hclosed i hi
      rw [hsg]
      rfl
    · obtain ⟨sg', hsg', hnext⟩ := hclosed i hi
      rw [hsg] at hsg'
      cases hsg'
      exact hnext t ht
  | freeRun =>
    simp only [validation, hm] at hverdict ⊢
    obtain ⟨hr, sg, o, invert, seed, hsg, hk⟩ := validateFreeRun_valid hverdict
    rw [hr]
    refine ⟨mem_addSegment.mpr (.inr rfl), fun i hi => ?_, fun h => (by cases h),
      fun _ => ⟨sg, o, invert, seed, hsg, hk⟩⟩
    have hfirst : i = pl.first := (mem_addSegment.mp hi).resolve_left (by simp)
    rw [hfirst, hsg]
    rfl

/-- A VALID plan's reach set is one that its walks cannot leave. -/
theorem PlanSound.closed {s : State} {pl : Plan} (h : PlanSound s pl) (hv : pl.valid = true) :
    Closed s.record pl pl.reach := by
  obtain ⟨hfirst, -, hseq, -⟩ := h hv
  refine ⟨hfirst, fun hm i j hi hl => ?_⟩
  obtain ⟨sg, hsg, ht⟩ := hl
  exact (hseq hm).2 i sg j hi hsg ht

theorem PlanSound.congr {s t : State} {pl : Plan} (hr : ∀ i, t.record i = s.record i) (h : PlanSound s pl) :
    PlanSound t pl := by
  unfold PlanSound at *
  simpa only [hr] using h

/-- Records that change outside the reach set leave the plan sound. -/
theorem PlanSound.elsewhere {s t : State} {pl : Plan} {i : Fin 64} (h : PlanSound s pl)
    (hi : ¬ pl.reach.getLsbD i.val = true) (hr : ∀ j, j ≠ i → t.record j = s.record j) : PlanSound t pl := by
  have hmem : ∀ j : Fin 64, pl.reach.getLsbD j.val = true → t.record j = s.record j :=
    fun j hj => hr j fun hc => hi (hc ▸ hj)
  intro hv
  obtain ⟨hfirst, hdef, hseq, hfree⟩ := h hv
  refine ⟨hfirst, fun j hj => hmem j hj ▸ hdef j hj, fun hm => ⟨(hseq hm).1, fun j sg u hj hsg => ?_⟩, fun hm => ?_⟩
  · exact (hseq hm).2 j sg u hj (hmem j hj ▸ hsg)
  · rw [hmem _ hfirst]
    exact hfree hm

/-! ### The invariant, by name -/

/-- A generator of lane n outside STOPPED has a VALID plan that it marks, and inside a run it stands in its reach. -/
structure GenSound (s : State) (n : Lane) (g : Generator) : Prop where
  active : g.state ≠ .stopped → (s.lane n).plan.valid = true ∧ MarksReach s (s.lane n).plan.reach (.generator n)
  within : StandsIn (s.lane n).plan.reach g

/-- The plan that a checker follows (R79). -/
def followed (s : State) (k : Checker) : Plan := (s.lane k.config.planLane).plan

/-- A checker of lane n outside OFF follows a VALID plan that it marks, in the plan's mode, and with a reference it
stands in the plan's reach. -/
structure CheckSound (s : State) (n : Lane) (k : Checker) : Prop where
  active : k.state ≠ .off → (followed s k).valid = true ∧ MarksReach s (followed s k).reach (.checker n) ∧
    k.mode = (followed s k).mode
  within : k.state = .verify ∨ k.state = .locked → (followed s k).reach.getLsbD k.pos.seg.val = true

/-- `WalkersSound`, part by part. -/
structure Walkers (s : State) : Prop where
  plans : ∀ n : Lane, PlanSound s (s.lane n).plan
  defined : ∀ i : Fin 64, (s.seg i).useSet ≠ 0 → (s.record i).isSome = true
  gen : ∀ n : Lane, GenSound s n (s.lane n).gen
  check : ∀ n : Lane, CheckSound s n (s.lane n).checker

theorem walkersSound_iff {s : State} : WalkersSound s ↔ Walkers s := by
  have hin : ∀ g : Generator, inRun g = true ↔ g.state = .running ∨ g.state = .pausing := fun g => by simp [inRun]
  constructor
  · rintro ⟨h1, h2, h3, h4, h5, h6⟩
    exact ⟨h1, h2, fun n => ⟨h3 n, fun hn => h4 n ((hin _).mp hn)⟩, fun n => ⟨h5 n, h6 n⟩⟩
  · rintro ⟨h1, h2, h3, h4⟩
    exact ⟨h1, h2, fun n => (h3 n).active, fun n hn => (h3 n).within ((hin _).mpr hn), fun n => (h4 n).active,
      fun n => (h4 n).within⟩

theorem GenSound.stopped {s : State} {n : Lane} {g : Generator} (h : g.state = .stopped) : GenSound s n g :=
  ⟨fun hg => absurd h hg, fun hg => absurd h (active_of_inRun hg)⟩

theorem CheckSound.off {s : State} {n : Lane} {k : Checker} (h : k.state = .off) : CheckSound s n k :=
  ⟨fun hk => absurd h hk, fun hk => by simp [h] at hk⟩

/-- A state in which an active generator's plan and marks are as they were. -/
theorem GenSound.congr {s t : State} {n : Lane} {g : Generator} (h : GenSound s n g)
    (same : g.state ≠ .stopped → (t.lane n).plan = (s.lane n).plan ∧
      ∀ r, MarksReach s r (.generator n) → MarksReach t r (.generator n)) : GenSound t n g := by
  refine ⟨fun hg => ?_, fun hg => ?_⟩
  · obtain ⟨hp, hm⟩ := same hg
    rw [hp]
    exact (h.active hg).imp_right (hm _)
  · rw [(same (active_of_inRun hg)).1]
    exact h.within hg

/-- A state in which an active checker's plan and marks are as they were. -/
theorem CheckSound.congr {s t : State} {n : Lane} {k : Checker} (h : CheckSound s n k)
    (same : k.state ≠ .off → followed t k = followed s k ∧
      ∀ r, MarksReach s r (.checker n) → MarksReach t r (.checker n)) : CheckSound t n k := by
  refine ⟨fun hk => ?_, fun hk => ?_⟩
  · obtain ⟨hp, hm⟩ := same hk
    obtain ⟨hv, hr, hmode⟩ := h.active hk
    rw [hp]
    exact ⟨hv, hm _ hr, hmode⟩
  · rw [(same (by rcases hk with hk | hk <;> simp [hk])).1]
    exact h.within hk

theorem MarksReach.congr {s t : State} {reach : BitVec 64} {w : Walker}
    (hs : ∀ i, (t.seg i).useSet = (s.seg i).useSet) (h : MarksReach s reach w) : MarksReach t reach w :=
  fun i hi => hs i ▸ h i hi

/-! ### Walkers that move, with plans and segments as they are -/

/-- A checker that does not leave OFF, change its plan or mode, nor leave the reach set of its plan. -/
structure CheckerWithin (s : State) (m : Lane) (k : Checker) : Prop where
  active : k.state ≠ .off → (s.lane m).checker.state ≠ .off ∧
    k.config.planLane = (s.lane m).checker.config.planLane ∧ k.mode = (s.lane m).checker.mode
  within : k.state = .verify ∨ k.state = .locked → ∀ reach, Closed s.record (checkerPlan s m) reach →
    ((checkerPlan s m).mode = .sequence → reach.getLsbD (checkerPlan s m).anchor.val = true) →
    (s.lane m).checker.mode = (checkerPlan s m).mode →
    ((s.lane m).checker.state = .verify ∨ (s.lane m).checker.state = .locked →
      reach.getLsbD (s.lane m).checker.pos.seg.val = true) →
    reach.getLsbD k.pos.seg.val = true

theorem CheckerWithin.refl (s : State) (m : Lane) : CheckerWithin s m (s.lane m).checker :=
  ⟨fun h => ⟨h, rfl, rfl⟩, fun h _ _ _ _ hin => hin h⟩

/-- A checker in OFF. -/
theorem CheckerWithin.off {s : State} {m : Lane} {k : Checker} (h : k.state = .off) : CheckerWithin s m k :=
  ⟨fun hk => absurd h hk, fun hk => by simp [h] at hk⟩

/-- The walkers stay sound when each moves within its reach set. -/
theorem Walkers.moves {s t : State} (h : Walkers s) (segs : t.segs = s.segs)
    (plan : ∀ m, (t.lane m).plan = (s.lane m).plan)
    (gen : ∀ m, GenMove s.record (s.lane m).plan (s.lane m).gen (t.lane m).gen)
    (check : ∀ m, CheckerWithin s m (t.lane m).checker) : Walkers t := by
  have hr : ∀ i, t.record i = s.record i := fun i => by simp only [State.record, State.seg, segs]
  have hm : ∀ {r w}, MarksReach s r w → MarksReach t r w := .congr fun i => by simp only [State.seg, segs]
  have hp : ∀ m, (t.lane m).checker.state ≠ .off → followed t (t.lane m).checker = checkerPlan s m := fun m hm => by
    obtain ⟨-, hl, -⟩ := (check m).active hm
    simp only [followed, checkerPlan, plan, hl]
  refine ⟨fun n => ?_, fun i hi => ?_, fun n => ⟨fun hn => ?_, fun hn => ?_⟩, fun n => ⟨fun hn => ?_, fun hn => ?_⟩⟩
  · exact plan n ▸ (h.plans n).congr hr
  · rw [hr]
    exact h.defined i (by simpa only [State.seg, segs] using hi)
  · rw [plan]
    exact ((h.gen n).active ((gen n).active hn)).imp_right hm
  · obtain ⟨hv, -⟩ := (h.gen n).active ((gen n).active (active_of_inRun hn))
    rw [plan]
    exact (gen n).within _ ((h.plans n).closed hv) (h.gen n).within hn
  · obtain ⟨hs, -, hmode⟩ := (check n).active hn
    obtain ⟨hv, hr, hmd⟩ := (h.check n).active hs
    rw [hp n hn]
    exact ⟨hv, hm hr, hmode.trans hmd⟩
  · have hon : (t.lane n).checker.state ≠ .off := by rcases hn with hn | hn <;> simp [hn]
    obtain ⟨hs, -, -⟩ := (check n).active hon
    obtain ⟨hv, -, hmd⟩ := (h.check n).active hs
    have hsound : PlanSound s (checkerPlan s n) := h.plans _
    rw [hp n hon]
    exact (check n).within hn _ (hsound.closed hv) (fun hseq => ((hsound hv).2.2.1 hseq).1) hmd (h.check n).within

/-- Lane n's generator and checker replaced by sound ones. -/
theorem Walkers.modLane {s : State} (h : Walkers s) (n : Lane) {f : LaneState → LaneState}
    (plan : (f (s.lane n)).plan = (s.lane n).plan) (gen : GenSound s n (f (s.lane n)).gen)
    (check : CheckSound s n (f (s.lane n)).checker) : Walkers (s.modLane n f) := by
  have hp : ∀ m, ((s.modLane n f).lane m).plan = (s.lane m).plan := fun m => by
    rw [State.modLane_lane]
    split
    · subst m; exact plan
    · rfl
  have hg : ∀ {m g}, GenSound s m g → GenSound (s.modLane n f) m g := fun h => h.congr fun _ => ⟨hp _, fun _ hm => hm⟩
  have hk : ∀ {m k}, CheckSound s m k → CheckSound (s.modLane n f) m k := fun h =>
    h.congr fun _ => ⟨hp _, fun _ hm => hm⟩
  refine ⟨fun m => hp m ▸ h.plans m, h.defined, fun m => hg ?_, fun m => hk ?_⟩ <;> rw [State.modLane_lane] <;> split
  · subst m; exact gen
  · exact h.gen m
  · subst m; exact check
  · exact h.check m

/-- Only timing, accumulators, rings, routes and lines change. -/
theorem Walkers.still {s t : State} (h : Walkers s) (segs : t.segs = s.segs)
    (plan : ∀ m, (t.lane m).plan = (s.lane m).plan) (gen : ∀ m, (t.lane m).gen = (s.lane m).gen)
    (check : ∀ m, (t.lane m).checker = (s.lane m).checker) : Walkers t :=
  h.moves segs plan (fun m => gen m ▸ .refl ..) fun m => check m ▸ .refl ..

theorem Walkers.timing {s t : State} (h : Walkers s) (slot : SlotStep s t) (timing : IntervalStep s t) : Walkers t :=
  h.still slot.segs (fun m => (slot.lane m).plan) (fun m => (timing.lane m).gen) fun m => (timing.lane m).checker

theorem Walkers.genSlot {s t : State} {n : Lane} (g : GenSlot n s t) (h : Walkers s) : Walkers t :=
  h.moves g.segs (fun m => (g.lane m).plan)
    (fun m => by
      by_cases hm : m = n
      · subst m; exact g.move
      · rw [(g.others m hm).gen]; exact .refl ..)
    fun m => g.checkers m ▸ .refl ..

/-! ### Words at a checker -/

/-- The reference past a word of a SEQUENCE plan stays in the reach set (R86). -/
theorem Closed.advanceReference {record : Fin 64 → Option Segment} {pl : Plan} {reach : BitVec 64}
    (h : Closed record pl reach) (hm : pl.mode = .sequence) {sg : Segment} {pos : Pos}
    (hsg : record pos.seg = some sg) (hin : reach.getLsbD pos.seg.val = true) :
    reach.getLsbD (advanceReference pl sg pos).seg.val = true := by
  unfold Machine.advanceReference
  split
  · rename_i q hq
    rcases (advance_onward hq).seg with hs | hs
    · exact hs ▸ hin
    · exact h.next hm _ _ hin ⟨sg, hsg, hs⟩
  · exact h.first

/-- The expectation of a word moves the reference within the reach set. -/
theorem expected_within {s : State} {n : Lane} {x : Expected} (hx : expected s n = .ok x) {reach : BitVec 64}
    (h : Closed s.record (checkerPlan s n) reach) (hm : (s.lane n).checker.mode = (checkerPlan s n).mode)
    (hin : reach.getLsbD (s.lane n).checker.pos.seg.val = true) :
    reach.getLsbD x.advanced.pos.seg.val = true := by
  simp only [expected] at hx
  split at hx
  · split at hx <;> cases hx
    exact hin
  · rename_i hseq
    split at hx
    · split at hx <;> cases hx
      exact h.advanceReference (hm ▸ hseq) (definedSegment_ok ‹_›) hin
    · cases hx
      exact hin

theorem CheckerMove.within {s : State} {n : Lane} {k : Checker} (h : CheckerMove s n k) : CheckerWithin s n k := by
  have past : ∀ {x : Expected} {c : Checker}, expected s n = .ok x →
      (s.lane n).checker.state = .verify ∨ (s.lane n).checker.state = .locked → c.config = x.advanced.config →
      c.mode = x.advanced.mode → c.pos = x.advanced.pos → CheckerWithin s n c := fun {x c} hx hs hc hmode hpos => by
    obtain ⟨hcfg, -, -, -, hmd⟩ := expected_config hx
    refine ⟨fun _ => ⟨?_, by rw [hc, hcfg], by rw [hmode, hmd]⟩, fun _ reach hr _ hm hin => ?_⟩
    · rcases hs with hs | hs <;> simp [hs]
    · rw [hpos]
      exact expected_within hx hr hm (hin hs)
  cases h with
  | stays => exact .refl s n
  | anchored sg state mode record =>
    refine ⟨fun _ => ⟨by simp [state], rfl, rfl⟩, fun _ reach hr hanchor hm _ => ?_⟩
    exact hr.advanceReference (hm ▸ mode) record (hanchor (hm ▸ mode))
  | synchronised st state => exact ⟨fun _ => ⟨by simp [state], rfl, rfl⟩, fun _ _ hr _ _ _ => hr.first⟩
  | passed x hx state => exact past hx state rfl rfl rfl
  | verified x hx state => exact past hx (.inl state) rfl rfl rfl
  | gained x hx state => exact past hx (.inl state) rfl rfl rfl
  | compared x e slip hx state => exact past hx (.inr state) rfl rfl rfl
  | lost state =>
    refine ⟨fun _ => ⟨?_, rfl, rfl⟩, fun hk => by simp [discardReference] at hk⟩
    rcases state with hs | hs <;> simp [hs]

theorem Walkers.word {s t : State} {n : Lane} (slot : SlotStep s t) (word : WordStep n s t) (h : Walkers s) :
    Walkers t :=
  h.moves slot.segs (fun m => (slot.lane m).plan) (fun m => (word.gens.lane m).gen ▸ .refl ..) fun m => by
    by_cases hm : m = n
    · subst m; exact word.move.within
    · rw [word.others m hm]; exact .refl ..

/-! ### Marks -/

/-- A walker's marks put on a reach set of defined segments (R12). -/
theorem Walkers.mark {s : State} (h : Walkers s) {reach : BitVec 64} (w : Walker)
    (defined : ∀ i : Fin 64, reach.getLsbD i.val = true → (s.record i).isSome = true) : Walkers (s.mark reach w) := by
  have keeps : ∀ {r v}, MarksReach s r v → MarksReach (s.mark reach w) r v := fun {r v} hm i hi => by
    rw [State.mark_seg]
    split
    · simp only [addUser_getLsbD _ _ v.bit_lt, hm i hi, Bool.true_or]
    · exact hm i hi
  have hl : (s.mark reach w).lane = s.lane := funext (State.mark_lane s reach w)
  refine ⟨fun n => ?_, fun i hi => ?_, fun n => ?_, fun n => ?_⟩
  · rw [State.mark_lane]
    exact (h.plans n).congr (State.mark_record s reach w)
  · rw [State.mark_record]
    rw [State.mark_seg] at hi
    split at hi
    · exact defined i ‹_›
    · exact h.defined i hi
  · rw [State.mark_lane]
    exact (h.gen n).congr fun _ => ⟨by rw [hl], fun _ => keeps⟩
  · rw [State.mark_lane]
    exact (h.check n).congr fun _ => ⟨by rw [followed, followed, hl], fun _ => keeps⟩

/-- The marks are on the reach set that they were put on. -/
theorem marksReach_mark (s : State) (reach : BitVec 64) (w : Walker) : MarksReach (s.mark reach w) reach w :=
  fun i hi => by
    rw [State.mark_seg, if_pos hi, addUser_getLsbD _ _ w.bit_lt, decide_eq_true rfl, Bool.or_true]

/-- An inactive walker's marks taken off (R12). -/
theorem Walkers.unmark {s : State} (h : Walkers s) (w : Walker)
    (gen : ∀ n, w = .generator n → (s.lane n).gen.state = .stopped)
    (check : ∀ n, w = .checker n → (s.lane n).checker.state = .off) : Walkers (s.unmark w) := by
  have keeps : ∀ {r v}, w ≠ v → MarksReach s r v → MarksReach (s.unmark w) r v := fun {r v} hv hm i hi => by
    have hb : w.bit ≠ v.bit := fun hc => hv (Walker.bit_inj hc)
    simp only [State.unmark_seg, removeUser_getLsbD _ _ v.bit_lt, hm i hi, hb, decide_false, Bool.not_false,
      Bool.and_true]
  have hl : (s.unmark w).lane = s.lane := funext (State.unmark_lane s w)
  refine ⟨fun n => ?_, fun i hi => ?_, fun n => ?_, fun n => ?_⟩
  · rw [State.unmark_lane]
    exact (h.plans n).congr (State.unmark_record s w)
  · rw [State.unmark_record]
    refine h.defined i fun h0 => hi ?_
    simp [h0, removeUser]
  · rw [State.unmark_lane]
    exact (h.gen n).congr fun hn => ⟨by rw [hl], fun _ => keeps fun hw => hn (gen n hw)⟩
  · rw [State.unmark_lane]
    exact (h.check n).congr fun hn => ⟨by rw [followed, followed, hl], fun _ => keeps fun hw => hn (check n hw)⟩

/-! ### Commands that start, stop and set -/

theorem State.unmark_modLane (s : State) (w : Walker) (n : Lane) (f : LaneState → LaneState) :
    (s.modLane n f).unmark w = (s.unmark w).modLane n f :=
  State.ext_parts (fun i => by simp) rfl (fun m => by simp) (fun p => by simp) (fun r => by simp) rfl rfl rfl

theorem planInUse_eq_false {s : State} {n : Lane} : planInUse s n = false ↔
    (s.lane n).gen.state = .stopped ∧
      ∀ c, (s.lane c).checker.config.planLane = n → (s.lane c).checker.state = .off := by
  simp [planInUse]

theorem invalidate_seg (s : State) (i j : Fin 64) : (invalidate s i).seg j = s.seg j := rfl

/-- A lane whose plan has lost VALID for a change of segment i (R34). -/
def LaneState.planChanged (l : LaneState) (i : Fin 64) : LaneState :=
  { l with plan := { l.plan with valid := false, verdict := .changed, verdictSeg := i } }

theorem invalidate_lane (s : State) (i : Fin 64) (n : Lane) : (invalidate s i).lane n =
    if (s.lane n).plan.reach.getLsbD i.val = true then (s.lane n).planChanged i else s.lane n := by
  rw [State.lane, Fin.getElem_fin, invalidate_lanes, Vector.getElem_map]
  rfl

/-- LANE_START arms the generator over its marked reach set (R39). -/
theorem Walkers.startLane {s : State} (h : Walkers s) (n : Lane) (hv : (s.lane n).plan.valid = true) :
    Walkers (startLane s n) := by
  have hm := h.mark (.generator n) (h.plans n hv).2.1
  refine hm.modLane n (f := armLane) rfl ⟨fun _ => ?_, fun hr => by simp [armLane, inRun] at hr⟩ (hm.check n)
  rw [State.mark_lane]
  exact ⟨hv, marksReach_mark _ _ _⟩

/-- LANE_HALT stops the generator and takes its marks off (R55). -/
theorem Walkers.haltLane {s : State} (h : Walkers s) (n : Lane) : Walkers (haltLane s n) := by
  have hstop : Walkers (s.modLane n fun l => l.modGen fun g => { g with state := .stopped, pendingTrigger := false }) :=
    h.modLane n rfl (.stopped rfl) (h.check n)
  rw [Machine.haltLane, ← State.unmark_modLane]
  exact hstop.unmark _ (fun m hm => by cases hm; simp [LaneState.modGen]) fun m hm => by cases hm

/-- CHECK_START puts the checker in SEARCH over the marked reach set of its plan (R82). -/
theorem Walkers.startChecker {s : State} (h : Walkers s) (n : Lane) (hv : (checkerPlan s n).valid = true) :
    Walkers (startChecker s n) := by
  have hm := h.mark (.checker n) (reach := (checkerPlan s n).reach) (h.plans _ hv).2.1
  refine hm.modLane n (f := fun l => (l.modAcc zeroAll).modChecker fun c =>
    { discardReference c .search with mode := (checkerPlan s n).mode }) rfl (hm.gen n) ⟨fun _ => ?_, fun hk => ?_⟩
  · simp only [State.mark_lane, followed]
    exact ⟨hv, marksReach_mark _ _ _, rfl⟩
  · simp [LaneState.modChecker, discardReference] at hk

/-- CHECK_STOP puts the checker in OFF and takes its marks off (R84). -/
theorem Walkers.stopChecker {s : State} (h : Walkers s) (n : Lane) : Walkers (stopChecker s n) := by
  obtain ⟨t, ht, hi, -, he⟩ := stopChecker_eq s n
  have hoff : Walkers (t.modLane n fun l => l.modChecker fun c => discardReference c .off) :=
    (h.timing ht hi).modLane n rfl ((h.timing ht hi).gen n) (.off rfl)
  rw [he, ← State.unmark_modLane]
  exact hoff.unmark _ (fun m hm => by cases hm) fun m hm => by cases hm; simp [LaneState.modChecker, discardReference]

/-- Lane n's plan replaced by a validated one while nothing uses it (R30 to R32). -/
theorem Walkers.setPlan {s : State} (h : Walkers s) (n : Lane) (pl : Plan) (idle : planInUse s n = false) :
    Walkers (s.setPlan n (validated s.record pl)) := by
  obtain ⟨hgen, hcheck⟩ := planInUse_eq_false.mp idle
  have others : ∀ m, m ≠ n → (s.setPlan n (validated s.record pl)).lane m = s.lane m := fun m hm => by
    rw [State.setPlan, State.modLane_lane, if_neg hm]
  have gens : ∀ m, ((s.setPlan n (validated s.record pl)).lane m).gen = (s.lane m).gen := fun m => by
    rw [State.setPlan, State.modLane_lane]
    split
    · subst m; rfl
    · rfl
  have checks : ∀ m, ((s.setPlan n (validated s.record pl)).lane m).checker = (s.lane m).checker := fun m => by
    rw [State.setPlan, State.modLane_lane]
    split
    · subst m; rfl
    · rfl
  refine ⟨fun m => ?_, h.defined, fun m => ?_, fun m => ?_⟩
  · by_cases hm : m = n
    · subst m
      rw [State.setPlan, State.modLane_lane, if_pos rfl]
      exact (planSound_validated s pl).congr fun _ => rfl
    · rw [others m hm]
      exact (h.plans m).congr fun _ => rfl
  · rw [gens]
    exact (h.gen m).congr fun hg => ⟨by rw [others m fun hm => hg (hm ▸ hgen)], fun _ hr => hr⟩
  · rw [checks]
    exact (h.check m).congr fun hk => ⟨by rw [followed, followed, others _ fun hm => hk (hcheck m hm)], fun _ hr => hr⟩

/-- A segment that no walker uses, replaced or made undefined: the plans that reach it lose VALID, and no active walker
follows one of these (R16, R18, R34). -/
theorem Walkers.replace {s : State} (h : Walkers s) (i : Fin 64) (unused : (s.seg i).useSet = 0)
    (r : Option Segment) : Walkers (invalidate (s.setSeg i { s.seg i with record := r }) i) := by
  have hseg : ∀ j, j ≠ i → (invalidate (s.setSeg i { s.seg i with record := r }) i).seg j = s.seg j := fun j hj => by
    rw [invalidate_seg, State.setSeg_seg, if_neg hj]
  have huse : ∀ j, ((invalidate (s.setSeg i { s.seg i with record := r }) i).seg j).useSet = (s.seg j).useSet :=
    fun j => by
      by_cases hj : j = i
      · rw [invalidate_seg, State.setSeg_seg, if_pos hj, hj]
      · rw [hseg j hj]
  have hlane : ∀ n, (invalidate (s.setSeg i { s.seg i with record := r }) i).lane n =
      if (s.lane n).plan.reach.getLsbD i.val = true then (s.lane n).planChanged i else s.lane n :=
    invalidate_lane (s.setSeg i { s.seg i with record := r }) i
  generalize invalidate (s.setSeg i { s.seg i with record := r }) i = t at hseg huse hlane ⊢
  have hmarks : ∀ {reach w}, MarksReach s reach w → MarksReach t reach w := .congr huse
  have unmarked : ∀ {reach w}, MarksReach s reach w → ¬ reach.getLsbD i.val = true := fun hm hi => by
    simpa [unused] using hm i hi
  have kept : ∀ n, ¬ (s.lane n).plan.reach.getLsbD i.val = true → t.lane n = s.lane n := fun n hn => by
    rw [hlane, if_neg hn]
  have walkers : ∀ n, (t.lane n).gen = (s.lane n).gen ∧ (t.lane n).checker = (s.lane n).checker := fun n => by
    rw [hlane]
    split <;> exact ⟨rfl, rfl⟩
  refine ⟨fun n => ?_, fun j hj => ?_, fun n => ?_, fun n => ?_⟩
  · by_cases hi : (s.lane n).plan.reach.getLsbD i.val = true
    · rw [hlane, if_pos hi]
      exact fun hv => by cases hv
    · rw [kept n hi]
      exact (h.plans n).elsewhere hi fun j hj => congrArg SegSlot.record (hseg j hj)
  · have hji : j ≠ i := fun hc => hj (by rw [huse, hc, unused])
    rw [State.record, hseg j hji]
    exact h.defined j (by rwa [← huse])
  · rw [(walkers n).1]
    exact (h.gen n).congr fun hg => ⟨by rw [kept n (unmarked ((h.gen n).active hg).2)], fun _ => hmarks⟩
  · rw [(walkers n).2]
    refine (h.check n).congr fun hk => ⟨?_, fun _ => hmarks⟩
    rw [followed, kept _ (unmarked ((h.check n).active hk).2.1), followed]

/-! ### Every step -/

theorem Walkers.ofParts : OfParts Walkers := fun s t hseg _ hlane hs => by
  have hl : ∀ n, t.lane n = s.lane n := fun n => by simp only [State.lane, hlane]
  exact hs.still hseg (fun m => by rw [hl]) (fun m => by rw [hl]) fun m => by rw [hl]

theorem Walkers.taken {f : Select} {c : Instr} {s u : State} (h : Taken f c s u) (hs : Walkers s) : Walkers u := by
  have port : ∀ {t : State} {p : Port} {g : PortState → PortState}, Walkers t → Walkers (t.modPort p g) :=
    fun ht => ofParts _ _ (by simp) (by simp) (by simp) ht
  have same : ∀ {n : Lane} {g : LaneState → LaneState}, (g (s.lane n)).plan = (s.lane n).plan →
      (g (s.lane n)).gen = (s.lane n).gen → (g (s.lane n)).checker = (s.lane n).checker → Walkers (s.modLane n g) :=
    fun {n g} hp hg hc => hs.modLane n hp (hg ▸ hs.gen n) (hc ▸ hs.check n)
  have free : ∀ {t : State} {k : Nat}, Walkers t → Walkers (t.useFree k) := fun {t _} ht =>
    ofParts t _ rfl rfl rfl ht
  cases h with
  | reads => exact hs
  | readsFree => exact free hs
  | eventClear | eventEnable | holdoffSet | segCursor | wordCursor | resultRead => exact port hs
  | portReset => exact port (ofParts s _ rfl rfl rfl hs)
  | reserve | release => exact ofParts s _ rfl rfl rfl hs
  | segWrite args _ i sg _ _ _ unused => exact port (hs.replace i unused (some sg))
  | segClear b _ i _ _ unused => exact hs.replace i unused none
  | wordWrite => exact port (hs.still rfl (fun _ => rfl) (fun _ => rfl) fun _ => rfl)
  | planSet _ _ n pl _ _ idle => exact hs.setPlan n pl idle
  | planCheck _ n _ idle => exact hs.setPlan n _ idle
  | laneStart _ n _ _ valid => exact hs.startLane n valid
  | laneTrigger _ n _ state => exact .genSlot (.takeTrigger s n state) hs
  | laneHalt _ n => exact hs.haltLane n
  | injectSet _ _ n x => exact free (same (g := setInjection x) rfl rfl rfl)
  | injectTotalsClear | sigClear | routeSet | totalsClear => exact same rfl rfl rfl
  | checkConfig _ n _ _ _ _ _ cfg _ _ state =>
    have hoff : (configureChecker cfg (s.lane n)).checker.state = .off := by
      unfold configureChecker
      split <;> exact state
    refine hs.modLane n ?_ ?_ (.off hoff) <;> unfold configureChecker <;> split
    · rfl
    · rfl
    · exact hs.gen n
    · exact hs.gen n
  | checkStart _ n _ _ valid => exact hs.startChecker n valid
  | checkStop _ n => exact hs.stopChecker n
  | gateConfig _ _ n cfg => exact free (same rfl rfl rfl)
  | gateArm _ n => exact hs.timing (.modLane _ _ (.armTimer _)) (.modLane _ _ (.armTimer _))
  | gateStart _ n => exact hs.timing (.modLane _ _ (.startInterval _)) (.modLane _ _ (.startInterval _))
  | gateRetrigger _ n => exact hs.timing (.closeAndRestart ..) (.closeAndRestart ..)
  | gateStop _ n => exact hs.timing (.stopTimer ..) (.stopTimer ..)
  | resultClear _ n =>
    exact ofParts (s.modLane n fun l => { l with ring := { l.ring with records := [] } }) _ rfl rfl rfl
      (same rfl rfl rfl)

/-- The reset state has no walker and no VALID plan (R178). -/
theorem Walkers.deviceReset (s : State) (phase : ResetPhase) : Walkers (deviceResetState s phase) := by
  refine ⟨fun n hv => ?_, fun i hi => ?_, fun n => .stopped ?_, fun n => .off ?_⟩
  · rw [deviceResetState_lane] at hv
    cases hv
  · rw [deviceResetState_seg] at hi
    exact absurd rfl hi
  · rw [deviceResetState_lane]
    rfl
  · rw [deviceResetState_lane]
    rfl

theorem Walkers.line {c : Instr} {s u : State} (h : LineNext c s u) (hs : Walkers s) : Walkers u := by
  have trigLine : ∀ n level, Walkers (s.modLane n fun l => { l with trigLine := level }) := fun n level =>
    hs.modLane n rfl (hs.gen n) (hs.check n)
  have timer : ∀ {n : Lane} {g : LaneState → LaneState}, LaneKept (s.lane n) (g (s.lane n)) →
      IntervalKept (s.lane n) (g (s.lane n)) → Walkers (s.modLane n g) :=
    fun hk hi => hs.timing (.modLane _ _ hk) (.modLane _ _ hi)
  cases h with
  | deviceReset => exact .deviceReset ..
  | resetNReturnsHigh => exact ofParts s _ rfl rfl rfl hs
  | noEdge => exact hs
  | trigLine n level => exact trigLine n level
  | trigger n level _ state => exact .genSlot (.takeTrigger _ n (by simpa using state)) (trigLine n level)
  | gateLine n level =>
    have hk := IntervalKept.gateEdgeTaken level (s.lane n)
    have hplan : (gateEdgeTaken level (s.lane n)).plan = (s.lane n).plan := by
      unfold gateEdgeTaken
      simp only
      split <;> rfl
    exact hs.modLane n hplan (hk.gen ▸ hs.gen n) (hk.checker ▸ hs.check n)
  | transmit n _ _ slot => exact transmit_keeps (fun _ _ => .genSlot) (fun _ _ _ => .word) slot hs
  | pauseEnd n => exact .genSlot (.pauseEnd s n) hs
  | wordLimit n => exact .genSlot (.wordLimitIfReached s n) hs
  | receive m w _ _ word => exact deliver_keeps (fun _ _ _ => .word) word hs
  | tick =>
    have ht := hs.timing (slotStep_ticks s) (intervalStep_ticks s)
    generalize tickTimer (tickTimer (tickTimer (tickTimer s 0) 1) 2) 3 = t at ht ⊢
    exact ofParts t _ rfl rfl rfl ht
  | sliceClose n => exact timer (.sliceCloseIfDue _) (.sliceCloseIfDue _)
  | intervalExpiry n => exact hs.timing (.intervalExpiryIfDue ..) (.intervalExpiryIfDue ..)
  | chainStart n => exact timer (.chainStartIfDue _) (.chainStartIfDue _)
  | holdoffExpiry p => exact ofParts _ _ (by simp) (by simp) (by simp) hs

/-- Settles O54: a walker moves only within the reach set that its plan's validation closed, and no command changes a
plan or a segment that it uses. -/
theorem walkersStaySound : Obligations.WalkersStaySound := fun _ _ hs h =>
  walkersSound_iff.mpr (step_keeps Walkers.ofParts
    (fun s p ht => ht.timing (.startOwed s p) (.startOwed s p)) (fun _ _ _ _ => .taken) (fun _ _ _ => .line) h
    (walkersSound_iff.mp hs))

end Sys2Proof.Machine
end

section
/-!
PROOF. The words of segments (R4 to R10): effective masks, the PRBS recurrence as one iterated state, and the words of
the four kinds.
-/

namespace Sys2Proof.Machine

/-! ### Masks and kinds -/

theorem tailMask_getLsbD (tail : BitVec 4) {j : Nat} (hj : j < 64) :
    (tailMask tail).getLsbD j = decide (64 ≤ j + 8 * tail.toNat) := by
  rw [tailMask, BitVec.getLsbD_shiftLeft, BitVec.getLsbD_allOnes]
  by_cases h : 64 ≤ j + 8 * tail.toNat
  · simp only [hj, decide_true, Bool.true_and, h, Bool.and_eq_true, Bool.not_eq_true', decide_eq_false_iff_not,
      decide_eq_true_eq]
    omega
  · have hlow : j < 64 - 8 * tail.toNat := by omega
    simp only [hlow, h, decide_true, decide_false, Bool.not_true, Bool.and_false, Bool.false_and]

theorem effectiveMask_getLsbD (sg : Segment) (i : BitVec 16) {j : Nat} (hj : j < 64) :
    (effectiveMask sg i).getLsbD j =
      (sg.mask.getLsbD j && (decide (i.toNat + 1 ≠ sg.words.toNat) || decide (64 ≤ j + 8 * sg.tail.toNat))) := by
  unfold effectiveMask
  split
  · rename_i hlast
    rw [BitVec.getLsbD_and, tailMask_getLsbD _ hj, decide_eq_false (not_not.mpr hlast), Bool.false_or]
  · rename_i hlast
    rw [decide_eq_true hlast, Bool.true_or, Bool.and_true]

theorem SegKind.isPrbs_iff {k : SegKind} : k.isPrbs = true ↔ ∃ o invert seed, k = .prbs o invert seed := by
  cases k <;> simp [SegKind.isPrbs]

theorem SegKind.anchors_iff {k : SegKind} : k.anchors = true ↔
    (∃ o invert seed, k = .prbs o invert seed) ∨ ∃ start stride rstep, k = .list start stride rstep := by
  cases k <;> simp [SegKind.anchors]

theorem freeRunSeed_prbs {s : State} {pl : Plan} {sg : Segment} {o : PrbsOrder} {invert : Bool} {seed : BitVec 32}
    (hsg : s.record pl.first = some sg) (hk : sg.kind = .prbs o invert seed) : freeRunSeed s pl = seed := by
  simp only [freeRunSeed, hsg, Option.map_some, hk]

/-! ### The PRBS recurrence -/

theorem PrbsOrder.taps (o : PrbsOrder) :
    (o.k, o.a) ∈ [(7, 6), (9, 5), (11, 9), (15, 14), (23, 18), (31, 28)] := by
  cases o <;> decide

/-- The second tap lies within the state. -/
theorem PrbsOrder.a_bounds (o : PrbsOrder) : 0 < o.a ∧ o.a ≤ o.k := by cases o <;> decide

/-- A bit shifted into a word stands at place 0. -/
theorem shiftIn_getLsbD_zero {w : Nat} (v : BitVec w) (b : Bool) (hw : 0 < w) :
    ((v <<< 1) ||| BitVec.ofNat w b.toNat).getLsbD 0 = b := by
  rw [BitVec.getLsbD_or, BitVec.getLsbD_shiftLeft, BitVec.getLsbD_ofNat]
  cases b <;> simp [hw]

/-- A bit shifted into a word moves the others up by one. -/
theorem shiftIn_getLsbD_succ {w : Nat} (v : BitVec w) (b : Bool) {j : Nat} (hj : j + 1 < w) :
    ((v <<< 1) ||| BitVec.ofNat w b.toNat).getLsbD (j + 1) = v.getLsbD j := by
  rw [BitVec.getLsbD_or, BitVec.getLsbD_shiftLeft, BitVec.getLsbD_ofNat, Nat.testBit_succ, Nat.add_sub_cancel]
  cases b <;> simp [hj]

/-- The recurrence state after one sequence bit (R8). -/
def prbsNext (o : PrbsOrder) (st : BitVec 32) : BitVec 32 := prbsShift o st (prbsBit o st)

theorem lowBits_getLsbD (o : PrbsOrder) (v : BitVec 32) {j : Nat} (hj : j < o.k) :
    (lowBits o.k v).getLsbD j = v.getLsbD j := by
  have h32 := o.k_lt
  simp only [lowBits, BitVec.getLsbD_and, BitVec.getLsbD_ofNat, Nat.testBit_two_pow_sub_one, hj,
    Nat.lt_trans hj h32, decide_true, Bool.and_true]

/-- The bit formed enters at place 0. -/
theorem prbsNext_getLsbD_zero (o : PrbsOrder) (st : BitVec 32) : (prbsNext o st).getLsbD 0 = prbsBit o st := by
  have hk : 0 < o.k := o.a_bounds.1.trans_le o.a_bounds.2
  rw [prbsNext, prbsShift, lowBits_getLsbD o _ hk, shiftIn_getLsbD_zero _ _ (by decide)]

/-- The bits formed earlier move up by one. -/
theorem prbsNext_getLsbD_succ (o : PrbsOrder) (st : BitVec 32) {j : Nat} (hj : j + 1 < o.k) :
    (prbsNext o st).getLsbD (j + 1) = st.getLsbD j := by
  rw [prbsNext, prbsShift, lowBits_getLsbD o _ hj, shiftIn_getLsbD_succ _ _ (hj.trans o.k_lt)]

theorem prbsTake_state (o : PrbsOrder) (n : Nat) (st : BitVec 32) (acc : Word) :
    (prbsTake o n st acc).1 = (prbsNext o)^[n] st := by
  induction n generalizing st acc with
  | zero => rfl
  | succ n ih =>
    rw [prbsTake, ih, Function.iterate_succ_apply]
    rfl

/-- The word collected by `prbsTake`: the bits formed, the first of them highest, below what it began with. -/
theorem prbsTake_word (o : PrbsOrder) (n : Nat) (st : BitVec 32) (acc : Word) {j : Nat} (hj : j < 64) :
    (prbsTake o n st acc).2.getLsbD j =
      if j < n then prbsBit o ((prbsNext o)^[n - 1 - j] st) else acc.getLsbD (j - n) := by
  induction n generalizing st acc with
  | zero => rfl
  | succ n ih =>
    rw [prbsTake, ih]
    rcases Nat.lt_trichotomy j n with h | rfl | h
    · have he : n + 1 - 1 - j = n - 1 - j + 1 := by omega
      rw [if_pos h, if_pos (by omega), he, Function.iterate_succ_apply]
      rfl
    · rw [if_neg (lt_irrefl j), if_pos (by omega), Nat.sub_self, Nat.add_sub_cancel, Nat.sub_self,
        shiftIn_getLsbD_zero _ _ (by decide)]
      rfl
    · have he : j - n = j - (n + 1) + 1 := by omega
      rw [if_neg (by omega), if_neg (by omega), he, shiftIn_getLsbD_succ _ _ (by omega)]

/-- The state before a visit word: the recurrence taken 64 times for each word before it. -/
theorem prbsStateAt_eq (o : PrbsOrder) (seed : BitVec 32) (w : Nat) :
    prbsStateAt o seed w = (prbsNext o)^[64 * w] seed := by
  induction w with
  | zero => rfl
  | succ w ih =>
    rw [prbsStateAt, prbsAfterWord, prbsTake_state, ih, ← Function.iterate_add_apply]
    congr 1
    omega

theorem prbsRawWord_getLsbD (o : PrbsOrder) (st : BitVec 32) {j : Nat} (hj : j < 64) :
    (prbsRawWord o st).getLsbD (63 - j) = prbsBit o ((prbsNext o)^[j] st) := by
  have he : 64 - 1 - (63 - j) = j := by omega
  rw [prbsRawWord, prbsTake_word o 64 st 0 (by omega), if_pos (by omega), he]

/-- Bit j of the word at a visit word number, as a bit of the sequence (R9). -/
theorem prbsStreamBit_word (o : PrbsOrder) (seed : BitVec 32) (w : Nat) {j : Nat} (hj : j < 64) :
    prbsStreamBit o seed (o.k + 64 * w + j) = (prbsRawWord o (prbsStateAt o seed w)).getLsbD (63 - j) := by
  have hsub : o.k + 64 * w + j - o.k = 64 * w + j := by omega
  have hdiv : (64 * w + j) / 64 = w := by omega
  have hmod : (64 * w + j) % 64 = j := by omega
  rw [prbsStreamBit, if_neg (by omega), hsub, hdiv, hmod]

/-- The n-th bit formed, as a bit of the sequence: words break nothing. -/
theorem prbsStreamBit_formed (o : PrbsOrder) (seed : BitVec 32) (n : Nat) :
    prbsStreamBit o seed (o.k + n) = prbsBit o ((prbsNext o)^[n] seed) := by
  have hn : 64 * (n / 64) + n % 64 = n := Nat.div_add_mod n 64
  have hj : n % 64 < 64 := Nat.mod_lt n (by omega)
  calc prbsStreamBit o seed (o.k + n)
      = prbsStreamBit o seed (o.k + 64 * (n / 64) + n % 64) := by rw [Nat.add_assoc, hn]
    _ = prbsBit o ((prbsNext o)^[n % 64] ((prbsNext o)^[64 * (n / 64)] seed)) := by
      rw [prbsStreamBit_word o seed _ hj, prbsRawWord_getLsbD o _ hj, prbsStateAt_eq]
    _ = prbsBit o ((prbsNext o)^[n] seed) := by rw [← Function.iterate_add_apply, Nat.add_comm, hn]

/-- The state after n bits holds the last k bits of the sequence, the latest at place 0 (R8). -/
theorem prbsNext_iterate_getLsbD (o : PrbsOrder) (seed : BitVec 32) (n : Nat) {j : Nat} (hj : j < o.k) :
    ((prbsNext o)^[n] seed).getLsbD j = prbsStreamBit o seed (n + (o.k - 1 - j)) := by
  induction n generalizing j with
  | zero =>
    have he : o.k - 1 - (0 + (o.k - 1 - j)) = j := by omega
    rw [prbsStreamBit, if_pos (by omega), he]
    rfl
  | succ n ih =>
    rw [Function.iterate_succ_apply']
    cases j with
    | zero =>
      have he : n + 1 + (o.k - 1 - 0) = o.k + n := by omega
      rw [prbsNext_getLsbD_zero, he, prbsStreamBit_formed]
    | succ j =>
      have he : n + 1 + (o.k - 1 - (j + 1)) = n + (o.k - 1 - j) := by omega
      rw [prbsNext_getLsbD_succ o _ hj, ih (by omega), he]

/-- The recurrence of R8 over the whole sequence. -/
theorem prbsStreamBit_recurrence (o : PrbsOrder) (seed : BitVec 32) (m : Nat) :
    prbsStreamBit o seed (m + o.k) = (prbsStreamBit o seed m ^^ prbsStreamBit o seed (m + o.k - o.a)) := by
  obtain ⟨hpos, hle⟩ := o.a_bounds
  have hfirst : m + (o.k - 1 - (o.k - 1)) = m := by omega
  have hsecond : m + (o.k - 1 - (o.a - 1)) = m + o.k - o.a := by omega
  rw [Nat.add_comm m o.k, prbsStreamBit_formed, prbsBit, prbsNext_iterate_getLsbD o seed m (by omega),
    prbsNext_iterate_getLsbD o seed m (by omega), hfirst, hsecond, Nat.add_comm m o.k]

theorem inverted_getLsbD (invert : Bool) (w : Word) {j : Nat} (hj : j < 64) :
    (inverted invert w).getLsbD j = (invert ^^ w.getLsbD j) := by
  cases invert
  · rw [Bool.false_xor]
    rfl
  · rw [Bool.true_xor, inverted, if_pos rfl, BitVec.getLsbD_not, decide_eq_true hj, Bool.true_and]

/-! ### The words of the four kinds -/

section
variable {m : Memory} {sg : Segment} {passStep : BitVec 12} {q : Pos}

theorem formWord_fill {v : Word} (h : sg.kind = .fill v) : formWord m sg passStep q = v := by
  simp only [formWord, h]

theorem formWord_count {init inc : Word} (h : sg.kind = .count init inc) :
    (formWord m sg passStep q).toNat =
      (init.toNat + (q.r.toNat * sg.words.toNat + q.i.toNat) * inc.toNat) % 2 ^ 64 := by
  simp only [formWord, h, visitWord, BitVec.toNat_add, BitVec.toNat_mul, BitVec.toNat_ofNat]
  rw [Nat.mod_mul_mod, Nat.add_mod_mod]

theorem formWord_list {start stride rstep : BitVec 12} (h : sg.kind = .list start stride rstep) :
    formWord m sg passStep q =
      storeRead m ((start.toNat + ((q.p - 1).toNat * passStep.toNat) % 4096 + q.r.toNat * rstep.toNat +
        q.i.toNat * stride.toNat) % 4096) := by
  simp only [formWord, h, listAddress, passOffset]

theorem formWord_prbs {o : PrbsOrder} {invert : Bool} {seed : BitVec 32} (h : sg.kind = .prbs o invert seed) {j : Nat}
    (hj : j < 64) : (formWord m sg passStep q).getLsbD (63 - j) =
      (invert ^^ prbsStreamBit o seed (o.k + 64 * (q.r.toNat * sg.words.toNat + q.i.toNat) + j)) := by
  simp only [formWord, h]
  rw [inverted_getLsbD _ _ (by omega), prbsStreamBit_word o seed _ hj, visitWord]

end

/-- Settles O21: a PRBS visit is the recurrence state iterated bit by bit, whatever the word boundaries. -/
theorem segmentsFormTheirWords : Obligations.SegmentsFormTheirWords :=
  ⟨⟨PrbsOrder.taps, fun sg i _ => effectiveMask_getLsbD sg i, fun tail _ => tailMask_getLsbD tail,
      fun _ => ⟨SegKind.anchors_iff, SegKind.isPrbs_iff⟩, fun _ _ _ _ _ _ => freeRunSeed_prbs⟩,
    prbsStreamBit_recurrence,
    fun _ _ _ _ => ⟨fun _ => formWord_fill, fun _ _ => formWord_count, fun _ _ _ => formWord_list,
      fun _ _ _ h _ => formWord_prbs h⟩⟩

end Sys2Proof.Machine
end

section
/-!
PROOF. Lane plans (R26 to R33): a validation's reach set is the chain of next links from first, its verdict is that of
the first failing test, and PLAN_SET and PLAN_CHECK store what it finds.
-/

namespace Sys2Proof.Machine

/-! ### The walk of R26 -/

/-- Whether segment i lies on the chain of next links from segment `first` (R26). -/
def Reached (record : Fin 64 → Option Segment) (first i : Fin 64) : Prop := Relation.ReflTransGen (Links record) first i

/-- A walk that began at `first` and now stands at `cur`, which is not yet in its set. -/
structure OnWalk (record : Fin 64 → Option Segment) (first : Fin 64) (set : BitVec 64) (cur : Fin 64) : Prop where
  walked : WalkedTo record set cur
  reached : ∀ i : Fin 64, (addSegment set cur).getLsbD i.val = true → Reached record first i
  begun : (addSegment set cur).getLsbD first.val = true

/-- Where the walk of R26 stops: at an undefined segment, or at one whose next link, if it has one, leads back. -/
inductive WalkStop (record : Fin 64 → Option Segment) (last : Fin 64) : BitVec 64 × Option (Fin 64) → Prop where
  | undefined (reach : BitVec 64) (missing : record last = none) : WalkStop record last (reach, some last)
  | closed (reach : BitVec 64) (sg : Segment) (defined : record last = some sg)
      (back : ∀ t, sg.next = some t → reach.getLsbD t.val = true) : WalkStop record last (reach, none)

theorem WalkedTo.defined {record : Fin 64 → Option Segment} {set : BitVec 64} {cur i : Fin 64}
    (h : WalkedTo record set cur) (hi : set.getLsbD i.val = true) : record i ≠ none := by
  obtain ⟨sg, hsg, -⟩ := h i hi
  simp [hsg]

/-- One link further on a walk. -/
theorem OnWalk.step {record : Fin 64 → Option Segment} {first cur t : Fin 64} {set : BitVec 64} {sg : Segment}
    (h : OnWalk record first set cur) (hsg : record cur = some sg) (hnext : sg.next = some t) :
    OnWalk record first (addSegment set cur) t where
  walked i hi := by
    rcases mem_addSegment.mp hi with hi | rfl
    · obtain ⟨sg', hsg', hn⟩ := h.walked i hi
      exact ⟨sg', hsg', fun u hu => .inl (mem_addSegment.mpr (hn u hu))⟩
    · exact ⟨sg, hsg, fun u hu => .inr (Option.some.inj (hu.symm.trans hnext))⟩
  reached i hi := by
    rcases mem_addSegment.mp hi with hi | rfl
    · exact h.reached i hi
    · exact (h.reached cur (mem_addSegment.mpr (.inr rfl))).tail ⟨sg, hsg, hnext⟩
  begun := mem_addSegment.mpr (.inl h.begun)

/-- A set that misses a segment has fewer than 64. -/
theorem card_segMembers_lt {set : BitVec 64} {i : Fin 64} (h : set.getLsbD i.val = false) :
    (segMembers set).card < 64 := by
  have hi : i ∉ segMembers set := by rw [mem_segMembers, h]; decide
  simpa using Finset.card_lt_univ_of_notMem hi

/-- The walk stops within 64 steps, each of which adds an index. -/
theorem reachWalk_stops (record : Fin 64 → Option Segment) (first : Fin 64) (fuel : Nat) (cur : Fin 64)
    (set : BitVec 64) (fresh : set.getLsbD cur.val = false) (enough : 64 ≤ fuel + (segMembers set).card)
    (walk : OnWalk record first set cur) :
    ∃ last seen, OnWalk record first seen last ∧ (reachWalk record fuel cur set).1 = addSegment seen last ∧
      WalkStop record last (reachWalk record fuel cur set) := by
  induction fuel generalizing cur set with
  | zero =>
    have := card_segMembers_lt fresh
    omega
  | succ fuel ih =>
    rw [reachWalk]
    split
    · exact ⟨cur, set, walk, rfl, .undefined _ ‹_›⟩
    · rename_i sg hsg
      split
      · rename_i hend
        exact ⟨cur, set, walk, rfl, .closed _ sg hsg fun t ht => by cases hend.symm.trans ht⟩
      · rename_i t hnext
        split
        · rename_i hback
          refine ⟨cur, set, walk, rfl, .closed _ sg hsg fun u hu => ?_⟩
          cases hnext.symm.trans hu
          exact hback
        · rename_i hnew
          have hcard : (segMembers (addSegment set cur)).card = (segMembers set).card + 1 := by
            rw [segMembers_addSegment, Finset.card_insert_of_notMem (by rw [mem_segMembers, fresh]; decide)]
          exact ih t (addSegment set cur) (Bool.eq_false_iff.mpr hnew) (by omega) (walk.step hsg hnext)

/-- The walk of a validation, from segment first with nothing in its set (R26). -/
def planWalk (record : Fin 64 → Option Segment) (first : Fin 64) : BitVec 64 × Option (Fin 64) :=
  reachWalk record 64 first 0

theorem planWalk_stops (record : Fin 64 → Option Segment) (first : Fin 64) :
    ∃ last seen, OnWalk record first seen last ∧ (planWalk record first).1 = addSegment seen last ∧
      WalkStop record last (planWalk record first) :=
  reachWalk_stops record first 64 first 0 (by simp) (Nat.le_add_right ..)
    { walked := fun i hi => by simp at hi
      reached := fun i hi => by
        rw [(mem_addSegment.mp hi).resolve_left (by simp)]
        exact .refl
      begun := mem_addSegment.mpr (.inr rfl) }

/-- The set of the walk is the chain of next links from first (R26). -/
theorem planWalk_reach (record : Fin 64 → Option Segment) (first i : Fin 64) :
    (planWalk record first).1.getLsbD i.val = true ↔ Reached record first i := by
  obtain ⟨last, seen, walk, hset, stop⟩ := planWalk_stops record first
  rw [hset]
  refine ⟨walk.reached i, fun h => ?_⟩
  induction h with
  | refl => exact walk.begun
  | @tail i j _ hlink ih =>
    obtain ⟨sg, hsg, hnext⟩ := hlink
    rcases mem_addSegment.mp ih with hi | rfl
    · obtain ⟨sg', hsg', hn⟩ := walk.walked i hi
      cases hsg.symm.trans hsg'
      exact mem_addSegment.mpr (hn j hnext)
    · rw [← hset]
      generalize planWalk record first = w at hset stop
      cases stop with
      | undefined _ hnone => cases hsg.symm.trans hnone
      | closed _ sg' hsg' back =>
        cases hsg.symm.trans hsg'
        exact back j hnext

/-- The walk stops undefined exactly at the undefined segment of the chain (R27 test 1). -/
theorem planWalk_undefined (record : Fin 64 → Option Segment) (first u : Fin 64) :
    (planWalk record first).2 = some u ↔ Reached record first u ∧ record u = none := by
  have hreach := planWalk_reach record first
  obtain ⟨last, seen, walk, hset, stop⟩ := planWalk_stops record first
  generalize planWalk record first = w at hreach hset stop
  have hlast : ∀ u, Reached record first u → record u = none → u = last := fun u hu hnone => by
    rw [← hreach, hset, mem_addSegment] at hu
    exact hu.resolve_left fun h => walk.walked.defined h hnone
  cases stop with
  | undefined reach hnone =>
    constructor
    · intro h
      cases h
      exact ⟨(hreach u).mp (hset ▸ mem_addSegment.mpr (.inr rfl)), hnone⟩
    · rintro ⟨hu, hun⟩
      rw [hlast u hu hun]
  | closed reach sg hsg =>
    refine ⟨fun h => (by cases h), fun ⟨hu, hun⟩ => ?_⟩
    rw [hlast u hu hun, hsg] at hun
    cases hun

theorem planWalk_defined {record : Fin 64 → Option Segment} {first : Fin 64}
    (h : ∀ u, Reached record first u → (record u).isSome = true) : (planWalk record first).2 = none :=
  Option.eq_none_iff_forall_ne_some.mpr fun u hu => by
    obtain ⟨hr, hnone⟩ := (planWalk_undefined record first u).mp hu
    simpa [hnone] using h u hr

/-! ### The tests of R27 and R28 -/

theorem validation_sequence {record : Fin 64 → Option Segment} {pl : Plan} (h : pl.mode = .sequence) :
    validation record pl = validateSequence record pl (planWalk record pl.first) := by
  rw [validation, h]
  rfl

theorem validation_freeRun {record : Fin 64 → Option Segment} {pl : Plan} (h : pl.mode = .freeRun) :
    validation record pl = validateFreeRun record pl := by
  rw [validation, h]

/-- Whatever the verdict, a SEQUENCE validation records the set of its walk (R26, R29). -/
theorem validateSequence_reach (record : Fin 64 → Option Segment) (pl : Plan) (walk : BitVec 64 × Option (Fin 64)) :
    (validateSequence record pl walk).reach = walk.1 := by
  unfold validateSequence
  repeat' split
  all_goals rfl

theorem validateFreeRun_reach (record : Fin 64 → Option Segment) (pl : Plan) :
    (validateFreeRun record pl).reach = addSegment 0 pl.first := by
  unfold validateFreeRun
  repeat' split
  all_goals rfl

/-- A plan that a validation has found with a verdict and a segment, VALID beside the verdict VALID alone (R29). -/
def Found (v : Plan) (valid : Bool) (verdict : Verdict) (seg : Fin 64) : Prop :=
  v.valid = valid ∧ v.verdict = verdict ∧ v.verdictSeg = seg

theorem found_of_validation {record : Fin 64 → Option Segment} {pl : Plan} {reach : BitVec 64} {verdict : Verdict}
    {seg : Fin 64} (h : validation record pl = { reach := reach, verdict := verdict, seg := seg }) :
    Found (validated record pl) (verdict == .valid) verdict seg := by
  simp only [validated, h]
  exact ⟨rfl, rfl, rfl⟩

section
variable {record : Fin 64 → Option Segment} {pl : Plan}

/-- R27 test 1. -/
theorem validated_undefined (hm : pl.mode = .sequence) {u : Fin 64} (hu : Reached record pl.first u)
    (hnone : record u = none) : Found (validated record pl) false .undefined u := by
  have hw := (planWalk_undefined record pl.first u).mpr ⟨hu, hnone⟩
  refine found_of_validation (reach := (planWalk record pl.first).1) (verdict := .undefined) ?_
  rw [validation_sequence hm, validateSequence, hw]

/-- R27 test 2. -/
theorem validated_unreached (hm : pl.mode = .sequence)
    (hdef : ∀ u, Reached record pl.first u → (record u).isSome = true) (h : ¬ Reached record pl.first pl.anchor) :
    Found (validated record pl) false .anchorUnreached pl.anchor := by
  rw [← planWalk_reach] at h
  refine found_of_validation (reach := (planWalk record pl.first).1) (verdict := .anchorUnreached) ?_
  rw [validation_sequence hm, validateSequence, planWalk_defined hdef]
  exact if_neg h

/-- R27 tests 3 and 4, on an anchor that the chain reaches. -/
theorem validation_anchor (hm : pl.mode = .sequence)
    (hdef : ∀ u, Reached record pl.first u → (record u).isSome = true) (hr : Reached record pl.first pl.anchor)
    {sg : Segment} (hsg : record pl.anchor = some sg) :
    validation record pl =
      if sg.kind.anchors then
        if matchMask sg = 0 then
          { reach := (planWalk record pl.first).1, verdict := .anchorMask, seg := pl.anchor }
        else { reach := (planWalk record pl.first).1, verdict := .valid, seg := 0 }
      else { reach := (planWalk record pl.first).1, verdict := .anchorKind, seg := pl.anchor } := by
  rw [← planWalk_reach] at hr
  rw [validation_sequence hm, validateSequence, planWalk_defined hdef]
  simp only [hr, if_true, hsg]

/-- The match mask of R89: the effective mask of word 0, which is the last when the segment has one word. -/
theorem matchMask_eq (sg : Segment) :
    matchMask sg = if sg.words.toNat = 1 then sg.mask &&& tailMask sg.tail else sg.mask := by
  simp [matchMask, effectiveMask, eq_comm]

/-- R28 test 1. -/
theorem validated_first_undefined (hm : pl.mode = .freeRun) (h : record pl.first = none) :
    Found (validated record pl) false .undefined pl.first := by
  refine found_of_validation (reach := addSegment 0 pl.first) (verdict := .undefined) ?_
  rw [validation_freeRun hm, validateFreeRun, h]

/-- R28 test 2, on a segment first that is defined. -/
theorem validation_first (hm : pl.mode = .freeRun) {sg : Segment} (h : record pl.first = some sg) :
    validation record pl =
      if sg.kind.isPrbs then { reach := addSegment 0 pl.first, verdict := .valid, seg := 0 }
      else { reach := addSegment 0 pl.first, verdict := .notPrbs, seg := pl.first } := by
  rw [validation_freeRun hm, validateFreeRun, h]

end

/-- Settles O20: the walk stops within 64 steps at a set that is the chain, and each failing test ends the validation. -/
theorem validationFollowsItsTests : Obligations.ValidationFollowsItsTests := by
  refine ⟨fun record pl i => ⟨fun hm => ?_, fun hm => ?_⟩, ?_⟩
  · have hr : (validated record pl).reach = (planWalk record pl.first).1 := by
      simp only [validated, validation_sequence hm, validateSequence_reach]
    rw [hr]
    exact planWalk_reach record pl.first i
  · have hr : (validated record pl).reach = addSegment 0 pl.first := by
      simp only [validated, validation_freeRun hm, validateFreeRun_reach]
    rw [hr, mem_addSegment]
    simp
  · rintro record pl v rfl
    refine ⟨fun hm => ⟨fun u => validated_undefined hm, fun hdef => ⟨validated_unreached hm hdef, ?_⟩⟩,
      fun hm => ⟨validated_first_undefined hm, fun sg hsg => ?_⟩⟩
    · intro sg hr hsg
      have hv := validation_anchor hm hdef hr hsg
      rw [← matchMask_eq]
      refine ⟨fun hk => ?_, fun hk => ⟨fun hz => ?_, fun hz => ?_⟩⟩
      · rw [if_neg (by simp [hk])] at hv
        exact found_of_validation hv
      · rw [if_pos hk, if_pos hz] at hv
        exact found_of_validation hv
      · rw [if_pos hk, if_neg hz] at hv
        exact found_of_validation hv
    · have hv := validation_first hm hsg
      refine ⟨fun hk => ?_, fun hk => ?_⟩
      · rw [if_neg (by simp [hk])] at hv
        exact found_of_validation hv
      · rw [if_pos hk] at hv
        exact found_of_validation hv

/-! ### A plan on the wire (R180) -/

@[simp] theorem planModeOfByte_code (m : PlanMode) : planModeOfByte (planModeCode m) = some m := by cases m <;> rfl

@[simp] theorem planTriggerOfByte_code (t : PlanTrigger) : planTriggerOfByte (planTriggerCode t) = some t := by
  cases t <;> rfl

@[simp] theorem segIndexOfByte_code (i : Fin 64) : segIndexOfByte (segIndexCode i) = some i := segIndexOfByte_ofNat i

@[simp] theorem length_planBytes (pl : Plan) : (planBytes pl).length = 22 := by simp [planBytes]

/-- The settable fields' bytes, field after field (R180). -/
theorem planBytes_eq (pl : Plan) :
    planBytes pl = planModeCode pl.mode :: segIndexCode pl.first :: segIndexCode pl.anchor ::
      planTriggerCode pl.trigger :: (beOf 2 pl.passCount ++ (beOf 2 pl.pause ++ (beOf 2 pl.passStep ++
        (beOf 4 pl.wordLimit ++ beOf 8 pl.idleWord)))) := by
  simp [planBytes]

/-- The numbers among a plan's bytes. -/
theorem planBytes_fields (pl : Plan) :
    fieldAt (planBytes pl) 4 2 = pl.passCount.toNat ∧ fieldAt (planBytes pl) 6 2 = pl.pause.toNat ∧
    fieldAt (planBytes pl) 8 2 = pl.passStep.toNat ∧ fieldAt (planBytes pl) 10 4 = pl.wordLimit.toNat ∧
    fieldAt (planBytes pl) 14 8 = pl.idleWord.toNat := by
  have past : ∀ k len : Nat, fieldAt (planBytes pl) (k + 4) len = fieldAt (beOf 2 pl.passCount ++ (beOf 2 pl.pause ++
      (beOf 2 pl.passStep ++ (beOf 4 pl.wordLimit ++ beOf 8 pl.idleWord)))) k len := fun k len => by
    rw [planBytes_eq]
    simp only [fieldAt_cons]
  refine ⟨?_, ?_, ?_, ?_, ?_⟩
  · rw [past 0, fieldAt_beOf _ _ _ (by norm_num)]
  · rw [past 2, fieldAt_append _ _ _ _ (by simp), length_beOf, fieldAt_beOf _ _ _ (by norm_num)]
  · rw [past 4, fieldAt_append _ _ _ _ (by simp), length_beOf, fieldAt_append _ _ _ _ (by simp), length_beOf,
      fieldAt_beOf _ _ _ (by norm_num)]
  · rw [past 6, fieldAt_append _ _ _ _ (by simp), length_beOf, fieldAt_append _ _ _ _ (by simp), length_beOf,
      fieldAt_append _ _ _ _ (by simp), length_beOf, fieldAt_beOf _ _ _ (by norm_num)]
  · rw [past 10, fieldAt_append _ _ _ _ (by simp), length_beOf, fieldAt_append _ _ _ _ (by simp), length_beOf,
      fieldAt_append _ _ _ _ (by simp), length_beOf, fieldAt_append _ _ _ _ (by simp), length_beOf,
      ← List.append_nil (beOf 8 _), fieldAt_beOf _ _ _ (by norm_num)]

/-- A plan with the nine settable fields of another (R30). -/
def Plan.withSettable (old sent : Plan) : Plan :=
  { old with
    mode := sent.mode, first := sent.first, anchor := sent.anchor, trigger := sent.trigger,
    passCount := sent.passCount, pause := sent.pause, passStep := sent.passStep,
    wordLimit := sent.wordLimit, idleWord := sent.idleWord }

/-- PLAN_SET's bytes put the nine settable fields into the plan that stands (R30). -/
theorem planOfBytes_planBytes (old sent : Plan) : planOfBytes old (planBytes sent) = some (old.withSettable sent) := by
  obtain ⟨hcount, hpause, hstep, hlimit, hidle⟩ := planBytes_fields sent
  have h0 : byteAt (planBytes sent) 0 = planModeCode sent.mode := rfl
  have h1 : byteAt (planBytes sent) 1 = segIndexCode sent.first := rfl
  have h2 : byteAt (planBytes sent) 2 = segIndexCode sent.anchor := rfl
  have h3 : byteAt (planBytes sent) 3 = planTriggerCode sent.trigger := rfl
  simp only [planOfBytes, h0, h1, h2, h3, planModeOfByte_code, segIndexOfByte_code, planTriggerOfByte_code, hcount,
    hpause, hstep, hlimit, hidle, BitVec.ofNat_toNat, BitVec.setWidth_eq, sent.passStep.isLt, if_true]
  rfl

/-! ### A lane changed under a reply -/

/-- A change of a lane stands beside the reply. -/
theorem shifted_modLane_respond (s : State) (p : Port) (len : Nat) (r : Response) (n : Lane)
    (g : LaneState → LaneState) :
    ((s.shifted p len).modLane n g).respond p r = (replied p len r s).modLane n g := by
  cases p <;> rfl

theorem shifted_record (s : State) (p : Port) (len : Nat) : (s.shifted p len).record = s.record :=
  funext (State.shifted_record s p len)

/-! ### PLAN_SET and PLAN_CHECK -/

/-- What storing a validated plan answers (R30, R31). -/
theorem settle_storePlan (p : Port) (code : Byte) (s : State) (len : Nat) (n : Lane) (pl : Plan) :
    settleAnswer p code (s.shifted p len) (storePlan (s.shifted p len) n pl) =
      .next ((replied p len { status := .ok, code := code, fields := verdictFields n (validated s.record pl) }
        s).modLane n fun l => { l with plan := validated s.record pl }) := by
  rw [storePlan, shifted_record, settle_done, State.setPlan, shifted_modLane_respond]

/-- PLAN_SET on an open lane, with bytes that spell a plan: refused while the plan is in use, or stored (R30, R32). -/
theorem execPlanSet_open {s : State} {p : Port} {n : Lane} (h : LaneOpen s p n) {rest : List Byte}
    (hlen : rest.length = 22) {pl : Plan} (hpl : planOfBytes (s.lane n).plan rest = some pl) :
    exec (.planSet p.frame (laneCode n :: rest)) s =
      settleAnswer p 0x20 (s.shifted p 24)
        (if planInUse s n then .refuse .busy else storePlan (s.shifted p 24) n pl) := by
  have he : exec (.planSet p.frame (laneCode n :: rest)) s = execPlanSet p.frame (laneCode n :: rest) s := rfl
  rw [he, execPlanSet, portCommand_taken h.1]
  have hh : heldByOther s p (laneResource n) = false := heldByOther_eq_false.mpr h.2
  simp [hlen, hpl, hh]

theorem execPlanCheck_open {s : State} {p : Port} {n : Lane} (h : LaneOpen s p n) :
    exec (.planCheck p.frame [laneCode n]) s =
      settleAnswer p 0x21 (s.shifted p 2)
        (if planInUse s n then .refuse .busy else storePlan (s.shifted p 2) n (s.lane n).plan) := by
  have he : exec (.planCheck p.frame [laneCode n]) s = execPlanCheck p.frame [laneCode n] s := rfl
  rw [he, execPlanCheck, laneCommand_open h, planInUse_shifted, State.shifted_lane]

/-- Settles O19: the bytes of PLAN_SET spell the fields it stores, and both commands store what the validation finds. -/
theorem planSetAndCheckValidate : Obligations.PlanSetAndCheckValidate := by
  intro p n s h hgen hcheck
  have hidle : planInUse s n = false := planInUse_eq_false.mpr ⟨hgen, hcheck⟩
  constructor
  · rintro sent v rfl
    rw [execPlanSet_open h (length_planBytes sent) (planOfBytes_planBytes ..), hidle]
    exact settle_storePlan ..
  · rintro v rfl
    rw [execPlanCheck_open h, hidle]
    exact settle_storePlan ..

end Sys2Proof.Machine
end

section
/-!
PROOF. The arguments of the setting commands: which are out of range, what the codes in range stand for and what the
clamps store (R30, R66, R78, R80, R118, R145, Table 11-3), and the BUSY and STATE refusals of the lane commands (R32,
R40, R41, R83, R120, R122).
-/

namespace Sys2Proof.Machine

/-! ### Codes -/

theorem byte_eq_iff {b : Byte} {k : Nat} (h : k < 256) : b = BitVec.ofNat 8 k ↔ b.toNat = k := by
  rw [← BitVec.toNat_inj, BitVec.toNat_ofNat, Nat.mod_eq_of_lt h]

theorem planModeOfByte_eq_none {b : Byte} : planModeOfByte b = none ↔ 1 < b.toNat := by
  unfold planModeOfByte
  split <;> simp_all
  omega

theorem planModeOfByte_eq_some {b : Byte} {m : PlanMode} (h : planModeOfByte b = some m) : b = planModeCode m := by
  unfold planModeOfByte at h
  split at h <;> cases h <;> exact (byte_eq_iff (by norm_num)).mpr ‹_›

theorem planTriggerOfByte_eq_none {b : Byte} : planTriggerOfByte b = none ↔ 3 < b.toNat := by
  unfold planTriggerOfByte
  split <;> simp_all
  omega

theorem planTriggerOfByte_eq_some {b : Byte} {t : PlanTrigger} (h : planTriggerOfByte b = some t) :
    b = planTriggerCode t := by
  unfold planTriggerOfByte at h
  split at h <;> cases h <;> exact (byte_eq_iff (by norm_num)).mpr ‹_›

theorem overflowOfByte_eq_none {b : Byte} : overflowOfByte b = none ↔ 1 < b.toNat := by
  unfold overflowOfByte
  split <;> simp_all
  omega

theorem overflowOfByte_eq_some {b : Byte} {m : OverflowMode} (h : overflowOfByte b = some m) : b = overflowCode m := by
  unfold overflowOfByte at h
  split at h <;> cases h <;> exact (byte_eq_iff (by norm_num)).mpr ‹_›

theorem timerUnitOfByte_eq_none {b : Byte} : timerUnitOfByte b = none ↔ 1 < b.toNat := by
  unfold timerUnitOfByte
  split <;> simp_all
  omega

theorem timerUnitOfByte_eq_some {b : Byte} {u : TimerUnit} (h : timerUnitOfByte b = some u) : b = timerUnitCode u := by
  unfold timerUnitOfByte at h
  split at h <;> cases h <;> exact (byte_eq_iff (by norm_num)).mpr ‹_›

theorem timerModeOfByte_eq_none {b : Byte} : timerModeOfByte b = none ↔ 1 < b.toNat := by
  unfold timerModeOfByte
  split <;> simp_all
  omega

theorem timerModeOfByte_eq_some {b : Byte} {m : TimerMode} (h : timerModeOfByte b = some m) : b = timerModeCode m := by
  unfold timerModeOfByte at h
  split at h <;> cases h <;> exact (byte_eq_iff (by norm_num)).mpr ‹_›

/-- Segments are numbered to 63, so the byte of a segment is read only up to there. -/
theorem segIndexOfByte_none_iff {b : Byte} : segIndexOfByte b = none ↔ 63 < b.toNat := by
  simp [segIndexOfByte]
  omega

theorem segIndexOfByte_val {b : Byte} {i : Fin 64} (h : segIndexOfByte b = some i) : i.val = b.toNat := by
  unfold segIndexOfByte at h
  split at h <;> cases h
  rfl

theorem laneOfByte_none_iff {b : Byte} : laneOfByte b = none ↔ 3 < b.toNat := by
  simp [laneOfByte]
  omega

theorem laneOfByte_val {b : Byte} {n : Lane} (h : laneOfByte b = some n) : n.val = b.toNat := by
  unfold laneOfByte at h
  split at h <;> cases h
  rfl

/-! ### PLAN_SET (R30) -/

theorem planOfBytes_eq_none {old : Plan} {bs : List Byte} : planOfBytes old bs = none ↔
    1 < (byteAt bs 0).toNat ∨ 63 < (byteAt bs 1).toNat ∨ 63 < (byteAt bs 2).toNat ∨ 3 < (byteAt bs 3).toNat ∨
      4095 < fieldAt bs 8 2 := by
  rw [← planModeOfByte_eq_none, ← segIndexOfByte_none_iff, ← segIndexOfByte_none_iff, ← planTriggerOfByte_eq_none]
  unfold planOfBytes
  cases planModeOfByte (byteAt bs 0) with
  | none => simp
  | some mode =>
    cases segIndexOfByte (byteAt bs 1) with
    | none => simp
    | some first =>
      cases segIndexOfByte (byteAt bs 2) with
      | none => simp
      | some anchor =>
        cases planTriggerOfByte (byteAt bs 3) with
        | none => simp
        | some trigger => simp; omega

/-- What the bytes of PLAN_SET store. -/
theorem planOfBytes_eq_some {old v : Plan} {bs : List Byte} (h : planOfBytes old bs = some v) :
    byteAt bs 0 = planModeCode v.mode ∧ v.first.val = (byteAt bs 1).toNat ∧ v.anchor.val = (byteAt bs 2).toNat ∧
    byteAt bs 3 = planTriggerCode v.trigger ∧ v.passCount.toNat = fieldAt bs 4 2 ∧ v.pause.toNat = fieldAt bs 6 2 ∧
    v.passStep.toNat = fieldAt bs 8 2 ∧ v.wordLimit.toNat = fieldAt bs 10 4 ∧ v.idleWord.toNat = fieldAt bs 14 8 ∧
    v.valid = old.valid ∧ v.reach = old.reach ∧ v.verdict = old.verdict ∧ v.verdictSeg = old.verdictSeg := by
  unfold planOfBytes at h
  split at h
  · rename_i mode first anchor trigger hm hf ha ht
    split at h <;> cases h
    rename_i hstep
    have field : ∀ start len, fieldAt bs start len % 2 ^ (8 * len) = fieldAt bs start len := fun start len => by
      rw [Nat.pow_mul]
      exact Nat.mod_eq_of_lt (fieldAt_lt ..)
    refine ⟨planModeOfByte_eq_some hm, segIndexOfByte_val hf, segIndexOfByte_val ha, planTriggerOfByte_eq_some ht,
      ?_, ?_, ?_, ?_, ?_, rfl, rfl, rfl, rfl⟩ <;> rw [BitVec.toNat_ofNat]
    · exact field 4 2
    · exact field 6 2
    · exact Nat.mod_eq_of_lt hstep
    · exact field 10 4
    · exact field 14 8
  · cases h

/-- Whether PLAN_SET's bytes are in range does not rest on the plan that they replace. -/
theorem planOfBytes_isSome (old other : Plan) (bs : List Byte) :
    (planOfBytes old bs).isSome = (planOfBytes other bs).isSome := by
  have h : planOfBytes old bs = none ↔ planOfBytes other bs = none := planOfBytes_eq_none.trans planOfBytes_eq_none.symm
  rw [Bool.eq_iff_iff, Option.isSome_iff_ne_none, Option.isSome_iff_ne_none, not_iff_not]
  exact h

/-! ### INJECT_SET (R66) -/

theorem injectionOfBytes_eq_none {kind bit len : Byte} {period : Nat} : injectionOfBytes kind bit len period = none ↔
    3 < kind.toNat ∨ (kind.toNat ≠ 0 ∧ 63 < bit.toNat) ∨ (kind.toNat = 2 ∧ (len.toNat = 0 ∨ 64 < len.toNat)) := by
  unfold injectionOfBytes
  split
  case h_1 hk => simp [hk]
  case h_5 h0 h1 h2 h3 =>
    rw [imp_false] at h0 h1 h2 h3
    have : 3 < kind.toNat := by omega
    exact iff_of_true rfl (.inl this)
  all_goals
    rename_i hk
    simp [hk]
    omega

theorem storePeriod_toNat {period : Nat} (h : period < 2 ^ 24) : (storePeriod period).toNat = max 2 period := by
  unfold storePeriod
  split
  · simp; omega
  · rw [BitVec.toNat_ofNat, Nat.mod_eq_of_lt h]
    omega

/-- A bit number below 64 keeps its value. -/
theorem bitOfByte_toNat {b : Byte} (h : b.toNat < 64) : (BitVec.ofNat 6 b.toNat).toNat = b.toNat := by
  rw [BitVec.toNat_ofNat, Nat.mod_eq_of_lt h]

theorem injectionOfBytes_single {bit len : Byte} {period : Nat} {x : Injection}
    (h : injectionOfBytes 1 bit len period = some x) : ∃ b : BitVec 6, b.toNat = bit.toNat ∧ x = .single b := by
  have h : (if bit.toNat < 64 then some (Injection.single (BitVec.ofNat 6 bit.toNat)) else none) = some x := h
  split at h <;> cases h
  exact ⟨_, bitOfByte_toNat ‹_›, rfl⟩

theorem injectionOfBytes_burst {bit len : Byte} {period : Nat} {x : Injection}
    (h : injectionOfBytes 2 bit len period = some x) :
    ∃ (b : BitVec 6) (k : BitVec 7), b.toNat = bit.toNat ∧ k.toNat = len.toNat ∧ x = .burst b k := by
  have h : (if bit.toNat < 64 ∧ 1 ≤ len.toNat ∧ len.toNat ≤ 64 then
      some (Injection.burst (BitVec.ofNat 6 bit.toNat) (BitVec.ofNat 7 len.toNat)) else none) = some x := h
  split at h <;> cases h
  rename_i hr
  obtain ⟨hb, -, hl⟩ := hr
  exact ⟨_, _, bitOfByte_toNat hb, by rw [BitVec.toNat_ofNat, Nat.mod_eq_of_lt (by omega)], rfl⟩

theorem injectionOfBytes_periodic {bit len : Byte} {period : Nat} {x : Injection}
    (h : injectionOfBytes 3 bit len period = some x) (hp : period < 2 ^ 24) :
    ∃ (b : BitVec 6) (P : BitVec 24), b.toNat = bit.toNat ∧ P.toNat = max 2 period ∧ x = .periodic b P := by
  have h : (if bit.toNat < 64 then
      some (Injection.periodic (BitVec.ofNat 6 bit.toNat) (storePeriod period)) else none) = some x := h
  split at h <;> cases h
  exact ⟨_, _, bitOfByte_toNat ‹_›, storePeriod_toNat hp, rfl⟩

/-! ### ROUTE_SET (R78) -/

theorem sourceOfBytes_eq_none {kind m : Byte} : sourceOfBytes kind m = none ↔ 1 < kind.toNat ∨ 3 < m.toNat := by
  rw [← laneOfByte_none_iff]
  unfold sourceOfBytes
  split
  · simp_all
  · simp_all
  · rename_i h0 h1
    refine iff_of_true rfl ?_
    cases hm : laneOfByte m with
    | none => exact .inr rfl
    | some l =>
      have hne0 : kind.toNat ≠ 0 := fun h => h0 l h hm
      have hne1 : kind.toNat ≠ 1 := fun h => h1 l h hm
      omega

theorem sourceOfBytes_eq_some {kind m : Byte} {src : Source} (h : sourceOfBytes kind m = some src) :
    ∃ n : Lane, n.val = m.toNat ∧ src = if kind = 0 then .external n else .loop n := by
  unfold sourceOfBytes at h
  split at h <;> cases h
  · rename_i n hk hn
    exact ⟨n, laneOfByte_val hn, (if_pos ((byte_eq_iff (k := 0) (by norm_num)).mpr hk)).symm⟩
  · rename_i n hk hn
    refine ⟨n, laneOfByte_val hn, (if_neg fun h0 => ?_).symm⟩
    simp [h0] at hk

theorem associateOfByte_eq_none {g : Byte} : associateOfByte g = none ↔ 3 < g.toNat ∧ g.toNat ≠ 255 := by
  have h255 : g = 255 ↔ g.toNat = 255 := byte_eq_iff (by norm_num)
  unfold associateOfByte
  split
  · rename_i h
    simp [h255.mp h]
  · rename_i h
    rw [Option.map_eq_none_iff, laneOfByte_none_iff]
    exact ⟨fun hg => ⟨hg, h255.not.mp h⟩, fun hg => hg.1⟩

theorem associateOfByte_lane {g : Byte} {a : Option Lane} (h : associateOfByte g = some a) (hg : g ≠ 255) :
    ∃ n : Lane, n.val = g.toNat ∧ a = some n := by
  rw [associateOfByte, if_neg hg, Option.map_eq_some_iff] at h
  obtain ⟨n, hn, rfl⟩ := h
  exact ⟨n, laneOfByte_val hn, rfl⟩

theorem routeOfBytes_eq_none {kind m g : Byte} : routeOfBytes kind m g = none ↔
    1 < kind.toNat ∨ 3 < m.toNat ∨ (3 < g.toNat ∧ g.toNat ≠ 255) := by
  rw [← or_assoc, ← sourceOfBytes_eq_none, ← associateOfByte_eq_none]
  unfold routeOfBytes
  cases sourceOfBytes kind m with
  | none => simp
  | some src => cases associateOfByte g <;> simp

theorem routeOfBytes_eq_some {kind m g : Byte} {r : Route} (h : routeOfBytes kind m g = some r) :
    sourceOfBytes kind m = some r.source ∧ associateOfByte g = some r.associate := by
  unfold routeOfBytes at h
  split at h <;> cases h
  exact ⟨‹_›, ‹_›⟩

/-! ### CHECK_CONFIG (R80) -/

theorem storeVerify_toNat (b : Byte) : (storeVerify b).toNat = max 1 (min b.toNat 15) := by
  have h0 : b = 0 ↔ b.toNat = 0 := byte_eq_iff (by norm_num)
  simp only [storeVerify, h0]
  split
  · simp_all
  · split
    · simp; omega
    · rw [BitVec.toNat_ofNat, Nat.mod_eq_of_lt (by omega)]
      omega

theorem storeLoss_toNat (b : Byte) : (storeLoss b).toNat = max 1 (min b.toNat 63) := by
  have h0 : b = 0 ↔ b.toNat = 0 := byte_eq_iff (by norm_num)
  simp only [storeLoss, h0]
  split
  · simp_all
  · split
    · simp; omega
    · rw [BitVec.toNat_ofNat, Nat.mod_eq_of_lt (by omega)]
      omega

theorem checkConfigOfBytes_eq_none {plan v t mode : Byte} : checkConfigOfBytes plan v t mode = none ↔
    3 < plan.toNat ∨ 1 < mode.toNat := by
  rw [← laneOfByte_none_iff, ← overflowOfByte_eq_none]
  unfold checkConfigOfBytes
  cases laneOfByte plan with
  | none => simp
  | some p => cases overflowOfByte mode <;> simp

theorem checkConfigOfBytes_eq_some {plan v t mode : Byte} {c : CheckConfig}
    (h : checkConfigOfBytes plan v t mode = some c) :
    c.planLane.val = plan.toNat ∧ c.verify = storeVerify v ∧ c.threshold = storeLoss t ∧
      mode = overflowCode c.overflow := by
  unfold checkConfigOfBytes at h
  split at h <;> cases h
  exact ⟨laneOfByte_val ‹_›, rfl, rfl, overflowOfByte_eq_some ‹_›⟩

/-! ### GATE_CONFIG (R118, R145) -/

theorem storeUnits_toNat {w v : Nat} (hw : 0 < w) (h : v < 2 ^ w) : (storeUnits w v).toNat = max 1 v := by
  unfold storeUnits
  split
  · have : 1 < 2 ^ w := Nat.one_lt_two_pow hw.ne'
    simp_all
  · rw [BitVec.toNat_ofNat, Nat.mod_eq_of_lt h]
    omega

theorem storeThreshold_tm {v : Nat} (h : v < 2 ^ 16) (tx : Byte) :
    (storeThreshold (BitVec.ofNat 16 v) tx).tm.toNat = if v = 0 then 0 else max 32768 v := by
  have hv : (BitVec.ofNat 16 v).toNat = v := by rw [BitVec.toNat_ofNat, Nat.mod_eq_of_lt h]
  have h0 : BitVec.ofNat 16 v = 0 ↔ v = 0 := by
    rw [← BitVec.toNat_inj, hv]
    rfl
  simp only [storeThreshold, h0, hv]
  split
  · rfl
  · split
    · simp; omega
    · rw [hv]
      omega

theorem storeThreshold_tx (tm : BitVec 16) (tx : Byte) : (storeThreshold tm tx).tx.toNat = min 55 tx.toNat := by
  simp only [storeThreshold]
  split
  · simp; omega
  · omega

theorem gateTriggerOfBytes_eq_none {n : Lane} {trigger chain : Byte} : gateTriggerOfBytes n trigger chain = none ↔
    6 < trigger.toNat ∨ (trigger.toNat = 6 ∧ (3 < chain.toNat ∨ chain.toNat = n.val)) := by
  unfold gateTriggerOfBytes
  split
  case h_7 h6 =>
    simp only [h6, lt_irrefl, true_and, false_or]
    cases hm : laneOfByte chain with
    | none => simp [laneOfByte_none_iff.mp hm]
    | some m =>
      have hlt : ¬ 3 < chain.toNat := laneOfByte_none_iff.not.mp (by simp [hm])
      have hval := laneOfByte_val hm
      simp only [← hval, Fin.val_inj]
      split <;> simp_all
  case h_8 h0 h1 h2 h3 h4 h5 h6 =>
    rw [imp_false] at h0 h1 h2 h3 h4 h5 h6
    have : 6 < trigger.toNat := by omega
    exact iff_of_true rfl (.inl this)
  all_goals simp_all

/-- A trigger's code is its byte, and CHAIN's source the lane of the next. -/
theorem gateTriggerOfBytes_eq_some {n : Lane} {trigger chain : Byte} {t : GateTrigger}
    (h : gateTriggerOfBytes n trigger chain = some t) :
    trigger = gateTriggerCode t ∧ ∀ m, t = .chain m → m.val = chain.toNat := by
  unfold gateTriggerOfBytes at h
  split at h
  case h_7 h6 =>
    split at h
    · split at h <;> cases h
      exact ⟨(byte_eq_iff (by norm_num)).mpr h6, fun m hm => by cases hm; exact laneOfByte_val ‹_›⟩
    · cases h
  case h_8 => cases h
  all_goals
    cases h
    exact ⟨(byte_eq_iff (by norm_num)).mpr ‹_›, fun m hm => by cases hm⟩

theorem timerConfigOfBytes_eq_none {n : Lane} {bs : List Byte} : timerConfigOfBytes n bs = none ↔
    1 < (byteAt bs 0).toNat ∨ 1 < (byteAt bs 6).toNat ∨ 6 < (byteAt bs 7).toNat ∨
      ((byteAt bs 7).toNat = 6 ∧ (3 < (byteAt bs 8).toNat ∨ (byteAt bs 8).toNat = n.val)) := by
  rw [← timerUnitOfByte_eq_none, ← timerModeOfByte_eq_none, ← gateTriggerOfBytes_eq_none]
  unfold timerConfigOfBytes
  cases timerUnitOfByte (byteAt bs 0) with
  | none => simp
  | some unit =>
    cases timerModeOfByte (byteAt bs 6) with
    | none => simp
    | some mode => cases gateTriggerOfBytes n (byteAt bs 7) (byteAt bs 8) <;> simp

theorem timerConfigOfBytes_eq_some {n : Lane} {bs : List Byte} {c : TimerConfig}
    (h : timerConfigOfBytes n bs = some c) :
    byteAt bs 0 = timerUnitCode c.unit ∧ byteAt bs 6 = timerModeCode c.mode ∧
    gateTriggerOfBytes n (byteAt bs 7) (byteAt bs 8) = some c.trigger ∧
    c.length = storeUnits 24 (fieldAt bs 1 3) ∧ c.slice = storeUnits 16 (fieldAt bs 4 2) ∧
    c.alarm = storeThreshold (BitVec.ofNat 16 (fieldAt bs 9 2)) (byteAt bs 11) ∧
    c.severe = storeThreshold (BitVec.ofNat 16 (fieldAt bs 12 2)) (byteAt bs 14) := by
  unfold timerConfigOfBytes at h
  split at h <;> cases h
  exact ⟨timerUnitOfByte_eq_some ‹_›, timerModeOfByte_eq_some ‹_›, ‹_›, rfl, rfl, rfl, rfl⟩

/-! ### The five setting commands together -/

/-- Settles O6: each command's range is that of its bytes one by one, and each code in range is read back. -/
theorem settingArgumentsKeepTheirRanges : Obligations.SettingArgumentsKeepTheirRanges := by
  refine ⟨fun old bs => ⟨planOfBytes_eq_none, fun v h => ?_⟩,
    fun kind bit len period => ⟨injectionOfBytes_eq_none, fun hk => (by rw [hk]; rfl), fun x h hp => ?_⟩,
    fun kind m g => ⟨routeOfBytes_eq_none, fun r h => ?_⟩,
    fun plan v t mode => ⟨checkConfigOfBytes_eq_none, fun c h => ?_⟩,
    fun n bs => ⟨timerConfigOfBytes_eq_none, fun c h => ?_⟩⟩
  · obtain ⟨hm, hf, ha, ht, hrest⟩ := planOfBytes_eq_some h
    refine ⟨?_, hf, ha, ?_, hrest⟩
    · rw [hm]
      cases v.mode <;> rfl
    · rw [ht]
      cases v.trigger <;> rfl
  · refine ⟨?_, ?_, ?_⟩ <;> rintro rfl
    · exact injectionOfBytes_single h
    · exact injectionOfBytes_burst h
    · exact injectionOfBytes_periodic h hp
  · obtain ⟨hs, ha⟩ := routeOfBytes_eq_some h
    refine ⟨sourceOfBytes_eq_some hs, fun hg => ?_, associateOfByte_lane ha⟩
    rw [hg] at ha
    exact (Option.some.inj ha).symm
  · obtain ⟨hp, hv, ht, hm⟩ := checkConfigOfBytes_eq_some h
    refine ⟨hp, hv ▸ storeVerify_toNat v, ht ▸ storeLoss_toNat t, ?_⟩
    rw [hm]
    cases c.overflow <;> rfl
  · obtain ⟨hu, hm, htrig, hl, hs, ha, hsev⟩ := timerConfigOfBytes_eq_some h
    obtain ⟨hcode, hchain⟩ := gateTriggerOfBytes_eq_some htrig
    refine ⟨?_, hl ▸ storeUnits_toNat (by norm_num) (fieldAt_lt bs 1 3),
      hs ▸ storeUnits_toNat (by norm_num) (fieldAt_lt bs 4 2), ?_, ?_⟩
    · rw [hu]
      cases c.unit <;> rfl
    · rw [hm]
      cases c.mode <;> rfl
    · rw [hcode, ha, hsev, storeThreshold_tm (fieldAt_lt bs 9 2), storeThreshold_tm (fieldAt_lt bs 12 2),
        storeThreshold_tx, storeThreshold_tx]
      cases htr : c.trigger <;> simp [gateTriggerCode]
      exact hchain _ htr

/-! ### BUSY and STATE -/

section
variable {s : State} {p : Port} {n : Lane}

/-- A refusal other than FRAME on an open lane. -/
theorem laneCommand_refused (h : LaneOpen s p n) {code : Byte} {needs : Bool} {body : Lane → State → Answer}
    {st : Status} (hst : st ≠ .frame) (hb : body n (s.shifted p 2) = .refuse st) :
    laneCommand p.frame code needs [laneCode n] body s =
      .next (replied p 2 { status := st, code := code, fields := [] } s) := by
  rw [laneCommand_open h, hb]
  exact settle_refuse hst ..

/-- A refusal other than FRAME by the body of a command. -/
theorem portCommand_refused (h : FramesTaken s p) {code : Byte} {args : List Byte} {body : State → Answer}
    {st : Status} (hst : st ≠ .frame) (hb : body (s.shifted p (1 + args.length)) = .refuse st) :
    portCommand p.frame code args body s =
      .next (replied p (1 + args.length) { status := st, code := code, fields := [] } s) := by
  rw [portCommand_taken h, hb]
  exact settle_refuse hst ..

/-- A plan is in use while its generator is not STOPPED or a checker that follows it is not OFF (R32). -/
theorem planInUse_eq_true : planInUse s n = true ↔ (s.lane n).gen.state ≠ .stopped ∨
    ∃ c : Lane, (s.lane c).checker.config.planLane = n ∧ (s.lane c).checker.state ≠ .off := by
  simp [planInUse]

theorem execPlanSet_busy (h : LaneOpen s p n) {rest : List Byte} (hlen : rest.length = 22)
    (hrange : argumentsInRange (.planSet p.frame (laneCode n :: rest)) = true) (hbusy : planInUse s n = true) :
    exec (.planSet p.frame (laneCode n :: rest)) s =
      .next (replied p 24 { status := .busy, code := 0x20, fields := [] } s) := by
  have hsome : (planOfBytes (s.lane n).plan rest).isSome = true :=
    (planOfBytes_isSome (s.lane n).plan (Reset.plan 0) rest).trans hrange
  obtain ⟨pl, hpl⟩ := Option.isSome_iff_exists.mp hsome
  rw [execPlanSet_open h hlen hpl, hbusy]
  exact settle_refuse (by decide) ..

theorem execPlanCheck_busy (h : LaneOpen s p n) (hbusy : planInUse s n = true) :
    exec (.planCheck p.frame [laneCode n]) s =
      .next (replied p 2 { status := .busy, code := 0x21, fields := [] } s) := by
  rw [execPlanCheck_open h, hbusy]
  exact settle_refuse (by decide) ..

theorem execRouteSet_busy (h : LaneOpen s p n) {kind m g : Byte} (hrange : (routeOfBytes kind m g).isSome = true)
    (hbusy : (s.lane n).checker.state ≠ .off) :
    exec (.routeSet p.frame [laneCode n, kind, m, g]) s =
      .next (replied p 5 { status := .busy, code := 0x38, fields := [] } s) := by
  obtain ⟨r, hr⟩ := Option.isSome_iff_exists.mp hrange
  have hfree : heldByOther s p (laneResource n) = false := heldByOther_eq_false.mpr h.2
  rw [exec, execRouteSet]
  refine portCommand_refused h.1 (st := .busy) (args := [laneCode n, kind, m, g]) (by decide) ?_
  simp [hr, hfree, hbusy]

theorem execCheckConfig_busy (h : LaneOpen s p n) {plan v t mode : Byte}
    (hrange : (checkConfigOfBytes plan v t mode).isSome = true) (hbusy : (s.lane n).checker.state ≠ .off) :
    exec (.checkConfig p.frame [laneCode n, plan, v, t, mode]) s =
      .next (replied p 6 { status := .busy, code := 0x39, fields := [] } s) := by
  obtain ⟨c, hc⟩ := Option.isSome_iff_exists.mp hrange
  have hfree : heldByOther s p (laneResource n) = false := heldByOther_eq_false.mpr h.2
  rw [exec, execCheckConfig]
  refine portCommand_refused h.1 (st := .busy) (args := [laneCode n, plan, v, t, mode]) (by decide) ?_
  simp [hc, hfree, hbusy]

theorem execGateConfig_busy (h : LaneOpen s p n) {rest : List Byte} (hlen : rest.length = 15)
    (hrange : (timerConfigOfBytes n rest).isSome = true) (hbusy : (s.lane n).timer.state ≠ .stop) :
    exec (.gateConfig p.frame (laneCode n :: rest)) s =
      .next (replied p 17 { status := .busy, code := 0x48, fields := [] } s) := by
  obtain ⟨c, hc⟩ := Option.isSome_iff_exists.mp hrange
  have hfree : heldByOther s p (laneResource n) = false := heldByOther_eq_false.mpr h.2
  have hframe : 17 = 1 + (laneCode n :: rest).length := by simp [hlen]
  rw [hframe]
  rw [exec, execGateConfig]
  refine portCommand_refused h.1 (st := .busy) (by decide) ?_
  simp [hlen, hc, hfree, hbusy]

theorem execLaneStart_state (h : LaneOpen s p n)
    (hs : (s.lane n).gen.state ≠ .stopped ∨ (s.lane n).plan.valid = false) :
    exec (.laneStart p.frame [laneCode n]) s =
      .next (replied p 2 { status := .state, code := 0x28, fields := [] } s) := by
  rw [exec, execLaneStart]
  refine laneCommand_refused h (st := .state) (by decide) ?_
  rw [State.shifted_lane]
  exact if_neg fun hg => hs.elim (fun h => h hg.1) fun h => by simp [h] at hg

theorem execLaneTrigger_state (h : LaneOpen s p n) (hs : (s.lane n).gen.state = .stopped) :
    exec (.laneTrigger p.frame [laneCode n]) s =
      .next (replied p 2 { status := .state, code := 0x29, fields := [] } s) := by
  rw [exec, execLaneTrigger]
  refine laneCommand_refused h (st := .state) (by decide) ?_
  rw [State.shifted_lane]
  exact if_pos hs

theorem execCheckStart_state (h : LaneOpen s p n)
    (hs : (s.lane n).checker.state ≠ .off ∨ (checkerPlan s n).valid = false) :
    exec (.checkStart p.frame [laneCode n]) s =
      .next (replied p 2 { status := .state, code := 0x3A, fields := [] } s) := by
  rw [exec, execCheckStart]
  refine laneCommand_refused h (st := .state) (by decide) ?_
  rw [State.shifted_lane, checkerPlan_shifted]
  exact if_neg fun hg => hs.elim (fun h => h hg.1) fun h => by simp [h] at hg

theorem execGateArm_state (h : LaneOpen s p n) (hs : (s.lane n).timer.state ≠ .stop) :
    exec (.gateArm p.frame [laneCode n]) s =
      .next (replied p 2 { status := .state, code := 0x49, fields := [] } s) := by
  rw [exec, execGateArm]
  refine laneCommand_refused h (st := .state) (by decide) ?_
  rw [State.shifted_lane]
  exact if_neg hs

theorem execGateTrigger_state (h : LaneOpen s p n) (hs : (s.lane n).timer.state = .stop) :
    exec (.gateTrigger p.frame [laneCode n]) s =
      .next (replied p 2 { status := .state, code := 0x4A, fields := [] } s) := by
  rw [exec, execGateTrigger]
  refine laneCommand_refused h (st := .state) (by decide) ?_
  rw [State.shifted_lane, hs]

end

/-- Settles O8: on an open lane each refusal is the first test of its command that fails. -/
theorem busyAndWrongStateRefusals : Obligations.BusyAndWrongStateRefusals := by
  refine ⟨⟨fun p n rest s h hlen hrange hbusy => ?_, fun p n kind m g s h => execRouteSet_busy h,
    fun p n plan v t mode s h => execCheckConfig_busy h, fun p n rest s h => execGateConfig_busy h⟩, fun p n s h => ?_⟩
  · have hused := planInUse_eq_true.mpr hbusy
    exact ⟨execPlanSet_busy h hlen hrange hused, execPlanCheck_busy h hused⟩
  · exact ⟨execLaneStart_state h, execLaneTrigger_state h, execCheckStart_state h, execGateArm_state h,
      execGateTrigger_state h⟩

end Sys2Proof.Machine
end

section
/-!
PROOF. Reservations and lanes (R165, R168): over the state that a frame's port left owed, its command leaves a lane that
the other port holds as it was, but for the two effects of R34 and R124.
-/

namespace Sys2Proof.Machine

/-! ### The state a frame finds -/

/-- What a command of a frame does, it does at the end of that frame (R160, R178, R183). -/
theorem exec_frameEnds {c : Instr} {f : Select} {bs : List Byte} (hw : c.WellFormed = true)
    (hc : frameBytes c = some (f, bs)) :
    ∃ carried : State → Host.Outcome State Fault Refusal, ∀ s, exec c s = frameEnds f s carried := by
  cases c with
  | unknownCodeFrame g code args =>
    cases hc
    have hcode : codeNamesCommand code = false := by simpa [Instr.WellFormed] using hw
    exact ⟨_, fun s => by rw [exec, execUnknownCodeFrame, if_neg (by simp [hcode]), portCommand]⟩
  | deviceReset | resetNReturnsHigh | tick => cases hc
  | trigEdge | gateEdge | transmitSlot | pauseEnd | wordLimitReached | receiveWord | sliceClose | intervalExpiry
  | chainStart | holdoffExpiry => cases hc
  | _ =>
    cases hc
    simp only [exec, execNop, execIdentify, execPortReset, execReserve, execRelease, execReservationRead,
      execEventRead, execEventClear, execEventEnable, execHoldoffSet, execSegSelect, execSegWrite, execSegRead,
      execSegClear, execWordSelect, execWordWrite, execWordRead, execPlanSet, execPlanCheck, execPlanRead,
      execLaneStart, execLaneTrigger, execLaneHalt, execLaneStatus, execInjectSet, execInjectRead,
      execInjectTotalsClear, execSigClear, execSigRead, execRouteSet, execCheckConfig, execCheckStart, execCheckStop,
      execCheckStatus, execTotalsRead, execTotalsClear, execGateConfig, execGateArm, execGateTrigger, execGateStop,
      execGateStatus, execResultRead, execResultPeek, execResultClear, execEmptyFrame, laneCommand, bareCommand,
      portCommand]
    exact ⟨_, fun s => rfl⟩

/-- A command that answers a next state stands for something the part can receive (R162 check 1). -/
theorem wellFormed_of_next {c : Instr} {s t : State} (h : exec c s = .next t) : c.WellFormed = true := by
  cases c with
  | unknownCodeFrame g code args =>
    cases hcode : codeNamesCommand code with
    | false => simp [Instr.WellFormed, hcode]
    | true =>
      rw [exec, execUnknownCodeFrame, if_pos hcode] at h
      cases h
  | _ => rfl

/-- An owed start comes once, whatever stands owed. -/
theorem startOwedAt_startOwedAt (p : Port) (l : LaneState) : startOwedAt p (startOwedAt p l) = startOwedAt p l := by
  rcases startOwedAt_cases p l with h | ⟨-, -, -, h⟩
  · rw [h, h]
  · rw [h]
    exact startOwedAt_eq_self (ChainOffer.none_owed p)

theorem startOwed_startOwed (s : State) (p : Port) : (s.startOwed p).startOwed p = s.startOwed p :=
  State.ext_parts (fun _ => rfl) rfl (fun n => by simp only [State.startOwed_lane, startOwedAt_startOwedAt])
    (fun q => by simp only [State.startOwed_port]) (fun _ => rfl) rfl rfl rfl

/-- A frame does the same in the state that it finds (R183). -/
theorem frameEnds_foundBy (f : Select) (s : State) (carried : State → Host.Outcome State Fault Refusal) :
    frameEnds f (foundBy f s) carried = frameEnds f s carried := by
  unfold foundBy
  split
  · rename_i h
    have h' : (s.startOwed f.port).resetPhase = .released ∧ f.early = false := h
    rw [frameEnds, frameEnds, if_pos h, if_pos h', startOwed_startOwed]
  · rfl

theorem foundBy_port (f : Select) (s : State) (p : Port) : (foundBy f s).port p = s.port p := by
  unfold foundBy
  split <;> simp

theorem foundBy_holder (f : Select) (s : State) (r : Fin 20) : (foundBy f s).holder r = s.holder r := by
  unfold foundBy
  split <;> rfl

/-- All that a frame can do to the state that it finds: nothing, what a refusal changes, or what its command does under
a new response. -/
theorem exec_foundBy {c : Instr} {f : Select} {bs : List Byte} {s t : State} (hc : frameBytes c = some (f, bs))
    (h : exec c s = .next t) :
    t = foundBy f s ∨ RefusedAlike f.port (foundBy f s) t ∨
      ∃ len v r, Taken f c ((foundBy f s).shifted f.port len) v ∧ t = v.respond f.port r := by
  obtain ⟨carried, hcarried⟩ := exec_frameEnds (wellFormed_of_next h) hc
  have hu : exec c (foundBy f s) = .next t := by rw [hcarried, frameEnds_foundBy, ← hcarried, h]
  rcases exec_frameNext hc hu with ht | ⟨hr, he, hn⟩
  · exact .inl ht
  · have hfound : (foundBy f s).startOwed f.port = foundBy f s := by
      unfold foundBy at hr ⊢
      split
      · exact startOwed_startOwed ..
      · rename_i hf
        rw [if_neg hf] at hr
        exact absurd ⟨hr, he⟩ hf
    rw [hfound] at hn
    exact .inr hn

/-! ### Other lanes -/

theorem modLane_lane_ne {n m : Lane} (h : n ≠ m) (s : State) (g : LaneState → LaneState) :
    (s.modLane m g).lane n = s.lane n := by
  rw [State.modLane_lane, if_neg h]

theorem pushRecord_lane_ne {n m : Lane} (h : n ≠ m) (s : State) (r : IntervalRecord) :
    (pushRecord s m r).lane n = s.lane n := by
  simp only [pushRecord]
  repeat' split
  all_goals simp only [State.modPorts_lane, modLane_lane_ne h]

/-- A close reaches another lane as an offer alone (R124). -/
theorem closeInterval_lane_ne {n m : Lane} (h : n ≠ m) (s : State) (cause : CloseCause) (sender : Option Port) :
    (closeInterval s m cause sender).lane n =
      if cause.startsFollowers then takeOffer m sender (s.lane n) else s.lane n := by
  have hclose : ∀ t : State, t = (if makesRecord (s.lane m) then closeWithRecord s m cause
      else s.modLane m (finishClose cause false)) → t.lane n = s.lane n := by
    rintro t rfl
    split
    · simp only [closeWithRecord, modLane_lane_ne h]
      split <;> simp only [State.raise_lane, pushRecord_lane_ne h, State.setLane_lane, if_neg h]
    · exact modLane_lane_ne h ..
  rw [closeInterval, offerClose_lane, hclose _ rfl]

theorem closeAndStop_lane_ne {n m : Lane} (h : n ≠ m) (s : State) {cause : CloseCause}
    (hcause : cause.startsFollowers = false) : (closeAndStop s m cause).lane n = s.lane n := by
  rw [closeAndStop, modLane_lane_ne h, closeInterval_lane_ne h, hcause]
  rfl

theorem stopTimer_lane_ne {n m : Lane} (h : n ≠ m) (s : State) : (stopTimer s m).lane n = s.lane n := by
  unfold stopTimer
  split
  · rfl
  · exact modLane_lane_ne h ..
  · exact closeAndStop_lane_ne h s rfl

theorem stopChecker_lane_ne {n m : Lane} (h : n ≠ m) (s : State) : (stopChecker s m).lane n = s.lane n := by
  simp only [stopChecker, modLane_lane_ne h, State.unmark_lane]
  split
  · exact closeAndStop_lane_ne h s rfl
  · rfl

theorem takeTrigger_lane_ne {n m : Lane} (h : n ≠ m) (s : State) : (takeTrigger s m).2.lane n = s.lane n := by
  unfold takeTrigger
  repeat' split
  · exact modLane_lane_ne h ..
  · rfl
  · exact modLane_lane_ne h ..

/-! ### A held lane -/

/-- What the command of a frame leaves of lane n while the other port holds it. -/
inductive HeldLane (f : Select) (c : Instr) (n : Lane) (s : State) : LaneState → Prop where
  | stays : HeldLane f c n s (s.lane n)
  /-- SEG_WRITE or SEG_CLEAR of a segment that the lane's plan reaches (R34). -/
  | planChanged (i : Fin 64) (reached : (s.lane n).plan.reach.getLsbD i.val = true)
      (command : (∃ args, c = .segWrite f args ∧ (s.port f.port).segCursor = i.castSucc) ∨
        c = .segClear f [BitVec.ofNat 8 i.val]) : HeldLane f c n s ((s.lane n).planChanged i)
  /-- GATE_TRIGGER in RUN on the lane that the timer waits for (R124, log 7). -/
  | offered (m : Lane) (command : c = .gateTrigger f [laneCode m]) (run : (s.lane m).timer.state = .run)
      (wait : (s.lane n).timer.state = .wait) (chain : (s.lane n).timer.config.trigger = .chain m) :
      HeldLane f c n s { s.lane n with timer := { (s.lane n).timer with
        chainOffer := (s.lane n).timer.chainOffer.join (some f.port) } }

theorem HeldLane.of_eq {f : Select} {c : Instr} {n : Lane} {s : State} {l : LaneState} (h : l = s.lane n) :
    HeldLane f c n s l := h ▸ .stays

theorem HeldLane.invalidate {f : Select} {c : Instr} {s : State} (n : Lane) (i : Fin 64) (slot : SegSlot)
    (command : (∃ args, c = .segWrite f args ∧ (s.port f.port).segCursor = i.castSucc) ∨
      c = .segClear f [BitVec.ofNat 8 i.val]) : HeldLane f c n s ((invalidate (s.setSeg i slot) i).lane n) := by
  rw [invalidate_lane, State.setSeg_lane]
  split
  · exact .planChanged i ‹_› command
  · exact .stays

theorem cursorSegment_eq_some {c : Fin 65} {i : Fin 64} (h : cursorSegment c = some i) : c = i.castSucc := by
  unfold cursorSegment at h
  split at h <;> cases h
  rfl

theorem segIndexOfByte_eq_some {b : Byte} {i : Fin 64} (h : segIndexOfByte b = some i) : b = BitVec.ofNat 8 i.val := by
  rw [segIndexOfByte_val h, BitVec.ofNat_toNat, BitVec.setWidth_eq]

/-- A free lane is not the held one. -/
theorem LaneFree.ne {s : State} {p : Port} {n m : Lane} (free : LaneFree s p m)
    (held : s.holder (laneResource n) = some (otherPort p)) : n ≠ m := fun h => free (h ▸ held)

/-- A command reaches a lane that the other port holds by R34 and R124 alone (R165, R168). -/
theorem Taken.heldLane {f : Select} {c : Instr} {s v : State} (h : Taken f c s v) {n : Lane}
    (held : s.holder (laneResource n) = some (otherPort f.port)) : HeldLane f c n s (v.lane n) := by
  cases h with
  | segWrite args _ i sg cursor =>
    rw [State.modPort_lane]
    exact .invalidate n i _ (.inl ⟨args, rfl, cursorSegment_eq_some cursor⟩)
  | segClear b _ i index => exact .invalidate n i _ (.inr (by rw [segIndexOfByte_eq_some index]))
  | gateRetrigger _ m lane run =>
    have hn := lane.ne held
    have hv : (closeAndRestart s m .retrigger (some f.port)).lane n = takeOffer m (some f.port) (s.lane n) := by
      rw [closeAndRestart, modLane_lane_ne hn, closeInterval_lane_ne hn]
      rfl
    rw [hv]
    rcases takeOffer_cases m (some f.port) (s.lane n) with he | ⟨wait, chain, he⟩ <;> rw [he]
    · exact .stays
    · exact .offered m rfl run wait chain
  | gateStop _ m lane => exact .of_eq (stopTimer_lane_ne (lane.ne held) s)
  | checkStop _ m lane => exact .of_eq (stopChecker_lane_ne (lane.ne held) s)
  | laneTrigger _ m lane => exact .of_eq (takeTrigger_lane_ne (lane.ne held) s)
  | laneStart _ m lane =>
    exact .of_eq ((modLane_lane_ne (lane.ne held) ..).trans (State.mark_lane ..))
  | checkStart _ m lane =>
    exact .of_eq ((modLane_lane_ne (lane.ne held) ..).trans (State.mark_lane ..))
  | laneHalt _ m lane => exact .of_eq ((modLane_lane_ne (lane.ne held) ..).trans (State.unmark_lane ..))
  | resultClear _ m lane =>
    exact .of_eq (by simp only [clearRing, State.modPorts_lane, modLane_lane_ne (lane.ne held)])
  | injectSet | gateConfig =>
    exact .of_eq ((State.useFree_lane ..).trans (modLane_lane_ne (LaneFree.ne ‹LaneFree s _ _› held) ..))
  | planSet | planCheck | injectTotalsClear | sigClear | routeSet | checkConfig | totalsClear | gateArm | gateStart =>
    exact .of_eq (modLane_lane_ne (LaneFree.ne ‹LaneFree s _ _› held) ..)
  | portReset | wordWrite => exact .of_eq (by rw [State.modPort_lane]; rfl)
  | eventClear | eventEnable | holdoffSet | segCursor | wordCursor | resultRead => exact .of_eq (State.modPort_lane ..)
  | reads | readsFree | reserve | release => exact .stays

/-- Shifting a response out touches nothing that a held lane rests on. -/
theorem HeldLane.of_shifted {f : Select} {c : Instr} {n : Lane} {s : State} {p : Port} {len : Nat} {l : LaneState}
    (h : HeldLane f c n (s.shifted p len) l) : HeldLane f c n s l := by
  have hcursor : ((s.shifted p len).port f.port).segCursor = (s.port f.port).segCursor := by
    rw [State.shifted_port]
    split
    · subst p; rfl
    · rfl
  cases h with
  | stays => exact .of_eq (State.shifted_lane ..)
  | planChanged i reached command =>
    rw [hcursor] at command
    rw [State.shifted_lane] at reached ⊢
    exact .planChanged i reached command
  | offered m command run wait chain =>
    rw [State.shifted_lane] at run wait chain ⊢
    exact .offered m command run wait chain

/-- A frame leaves a lane that the other port holds as it found it, but for R34 and R124. -/
theorem exec_heldLane {c : Instr} {f : Select} {bs : List Byte} {n : Lane} {s t : State}
    (hc : frameBytes c = some (f, bs)) (held : s.holder (laneResource n) = some (otherPort f.port))
    (h : exec c s = .next t) : HeldLane f c n (foundBy f s) (t.lane n) := by
  rcases exec_foundBy hc h with rfl | hr | ⟨len, v, r, hv, rfl⟩
  · exact .stays
  · exact .of_eq (by simp only [State.lane, hr.lanes])
  · have hh := hv.heldLane (n := n) (by rw [State.shifted_holder, foundBy_holder, held])
    rw [State.respond_lane]
    exact hh.of_shifted

/-- Settles O58: the frame's command needs the lanes it changes (`LaneFree`), but for `HeldLane`. -/
theorem reservationGuardsTheLane : Obligations.ReservationGuardsTheLane := by
  rintro c f bs n s t u hc held h rfl
  refine ⟨((exec_frameNext hc h).holder_other _).mp held, ?_⟩
  have hl := exec_heldLane hc held h
  generalize t.lane n = l at hl
  cases hl with
  | stays => exact ⟨rfl, .inl rfl, .inl rfl⟩
  | planChanged i reached command =>
    rw [foundBy_port] at command
    exact ⟨rfl, .inr ⟨i, reached, command, rfl⟩, .inl rfl⟩
  | offered m command run wait chain => exact ⟨rfl, .inl rfl, .inr ⟨m, command, run, wait, chain, rfl⟩⟩

end Sys2Proof.Machine
end

section
/-!
PROOF. Sound states never stop (R35, R76, R151, R162): a frame's command is answered, a walker stands in a defined
segment of the kind it needs, and a result cursor names a held record or next_seq.
-/

namespace Sys2Proof.Machine

/-! ### Frames -/

/-- A command that refuses or answers, and does not stop the part. -/
def Answer.Settles : Answer → Prop
  | .refuse _ => True
  | .done .. => True
  | .stuck _ => False

theorem settleAnswer_of_settles {p : Port} {code : Byte} {s : State} {a : Answer} (h : a.Settles) :
    ∃ t, settleAnswer p code s a = .next t := by
  cases a with
  | refuse st => exact ⟨_, rfl⟩
  | done st fields u => exact ⟨_, rfl⟩
  | stuck f => exact h.elim

section
variable {f : Select} {code : Byte} {args : List Byte} {s : State}

theorem frameEnds_answers {carried : State → Host.Outcome State Fault Refusal}
    (h : ∃ t, carried (s.startOwed f.port) = .next t) : ∃ t, frameEnds f s carried = .next t := by
  unfold frameEnds
  split
  · exact h
  · exact ⟨s, rfl⟩

theorem portCommand_answers {body : State → Answer}
    (h : (body ((s.startOwed f.port).shifted f.port (1 + args.length))).Settles) :
    ∃ t, portCommand f code args body s = .next t :=
  frameEnds_answers (settleAnswer_of_settles h)

theorem laneCommand_answers {needs : Bool} {body : Lane → State → Answer}
    (h : ∀ n, (body n ((s.startOwed f.port).shifted f.port (1 + args.length))).Settles) :
    ∃ t, laneCommand f code needs args body s = .next t := by
  refine portCommand_answers ?_
  repeat' split
  · trivial
  · trivial
  · exact h _
  · trivial

theorem bareCommand_answers {body : State → Answer}
    (h : (body ((s.startOwed f.port).shifted f.port (1 + args.length))).Settles) :
    ∃ t, bareCommand f code args body s = .next t := by
  refine portCommand_answers ?_
  split
  · exact h
  · trivial

end

/-- Every frame but RESULT_READ's is answered, in whatever state. -/
theorem exec_answers {c : Instr} {f : Select} {bs : List Byte} (hw : c.WellFormed = true)
    (hc : frameBytes c = some (f, bs)) (hread : ∀ args, c ≠ .resultRead f args) (s : State) :
    ∃ t, exec c s = .next t := by
  cases c with
  | nop | emptyFrame =>
    simp only [exec, execNop, execEmptyFrame]
    exact frameEnds_answers ⟨_, rfl⟩
  | portReset g args =>
    rw [exec, execPortReset]
    refine frameEnds_answers ?_
    dsimp only
    split
    · exact ⟨_, rfl⟩
    · exact settleAnswer_of_settles trivial
  | unknownCodeFrame g code args =>
    have hcode : codeNamesCommand code = false := by simpa [Instr.WellFormed] using hw
    rw [exec, execUnknownCodeFrame, if_neg (by simp [hcode])]
    exact portCommand_answers trivial
  | resultRead g args =>
    cases hc
    exact absurd rfl (hread args)
  | identify | reservationRead | eventRead =>
    simp only [exec, execIdentify, execReservationRead, execEventRead]
    exact bareCommand_answers trivial
  | segRead =>
    rw [exec, execSegRead]
    refine bareCommand_answers ?_
    split <;> trivial
  | planRead | laneStatus | sigRead | checkStatus | totalsRead | injectRead | gateStatus | laneHalt | injectTotalsClear
  | sigClear | checkStop | totalsClear | gateStop | resultClear =>
    simp only [exec, execPlanRead, execLaneStatus, execSigRead, execCheckStatus, execTotalsRead, execInjectRead,
      execGateStatus, execLaneHalt, execInjectTotalsClear, execSigClear, execCheckStop, execTotalsClear, execGateStop,
      execResultClear]
    exact laneCommand_answers fun _ => trivial
  | resultPeek | planCheck | laneStart | laneTrigger | checkStart | gateArm | gateTrigger =>
    simp only [exec, execResultPeek, execPlanCheck, execLaneStart, execLaneTrigger, execCheckStart, execGateArm,
      execGateTrigger]
    refine laneCommand_answers fun _ => ?_
    split <;> trivial
  | reserve | release | eventClear | eventEnable | holdoffSet | segSelect | segWrite | segClear | wordSelect
  | wordWrite | wordRead | planSet | injectSet | routeSet | checkConfig | gateConfig =>
    simp only [exec, execReserve, execRelease, execEventClear, execEventEnable, execHoldoffSet, execSegSelect,
      execSegWrite, execSegClear, execWordSelect, execWordWrite, execWordRead, execPlanSet, execInjectSet,
      execRouteSet, execCheckConfig, execGateConfig]
    refine portCommand_answers ?_
    repeat' split
    all_goals trivial
  | deviceReset | resetNReturnsHigh | tick => cases hc
  | trigEdge | gateEdge | transmitSlot | pauseEnd | wordLimitReached | receiveWord | sliceClose | intervalExpiry
  | chainStart | holdoffExpiry => cases hc

/-! ### RESULT_READ -/

/-- A cursor with records still to read names one that is held (R151). -/
theorem namedRecord_held {r : Ring} {c : ResultCursor} (sound : RingSound r) (behind : c.next ≠ r.nextSeq)
    (within : (unread r c).toNat ≤ r.records.length) : ∃ x, namedRecord r c = some x := by
  obtain ⟨-, hseq⟩ := sound
  have hpos : 0 < (unread r c).toNat := by
    refine Nat.pos_of_ne_zero fun h => behind ?_
    have hzero : r.nextSeq - c.next = 0 := BitVec.eq_of_toNat_eq h
    exact (sub_eq_zero.mp hzero).symm
  obtain ⟨k, hk⟩ : ∃ k, r.records.length = k + (unread r c).toNat := ⟨_, (Nat.sub_add_cancel within).symm⟩
  have hlt : k < r.records.length := by omega
  have hlen : BitVec.ofNat 32 r.records.length = BitVec.ofNat 32 k + (r.nextSeq - c.next) := by
    rw [hk, BitVec.ofNat_add, BitVec.ofNat_toNat, BitVec.setWidth_eq, unread]
  have hnamed : r.records[k].sequence = c.next := by
    rw [hseq k hlt, hlen]
    ring
  exact Option.isSome_iff_exists.mp
    (List.find?_isSome.mpr ⟨r.records[k], List.getElem_mem hlt, by simpa using hnamed⟩)

theorem startOwedAt_ring (p : Port) (l : LaneState) : (startOwedAt p l).ring = l.ring := by
  rcases startOwedAt_cases p l with h | ⟨-, -, -, h⟩ <;> rw [h]
  rfl

/-- What a port's earlier commands owe, and the shifting out of a response, leave rings and cursors as they are. -/
theorem RingsSound.shifted {s : State} (h : RingsSound s) (p q : Port) (len : Nat) :
    RingsSound ((s.startOwed p).shifted q len) := by
  intro n
  have hring : (((s.startOwed p).shifted q len).lane n).ring = (s.lane n).ring := by
    rw [State.shifted_lane, State.startOwed_lane, startOwedAt_ring]
  have hresults : ∀ r : Port, (((s.startOwed p).shifted q len).port r).results = (s.port r).results := fun r => by
    simp only [State.shifted_port, State.startOwed_port]
    split
    · subst r; rfl
    · rfl
  rw [hring]
  exact ⟨(h n).1, fun r => by rw [hresults]; exact (h n).2 r⟩

theorem execResultRead_answers {f : Select} {args : List Byte} {s : State} (h : RingsSound s) :
    ∃ t, execResultRead f args s = .next t := by
  rw [execResultRead]
  refine laneCommand_answers fun n => ?_
  obtain ⟨hring, hunread⟩ := h.shifted f.port f.port (1 + args.length) n
  dsimp only
  split
  · trivial
  · obtain ⟨x, hx⟩ := namedRecord_held hring ‹_› (hunread f.port)
    rw [hx]
    trivial

/-! ### Walkers (R35) -/

/-- A walker within the reach set of a VALID plan stands in a defined segment. -/
theorem PlanSound.definedSegment {s : State} {pl : Plan} (h : PlanSound s pl) (hv : pl.valid = true) {i : Fin 64}
    (hi : pl.reach.getLsbD i.val = true) : ∃ sg, definedSegment s i = .ok sg := by
  obtain ⟨-, hdef, -⟩ := h hv
  obtain ⟨sg, hsg⟩ := Option.isSome_iff_exists.mp (hdef i hi)
  exact ⟨sg, by rw [Machine.definedSegment, hsg]⟩

/-- The segment of a VALID FREE-RUN plan is PRBS. -/
theorem PlanSound.freeRunSegment {s : State} {pl : Plan} (h : PlanSound s pl) (hv : pl.valid = true)
    (hm : pl.mode = .freeRun) : ∃ x, freeRunSegment s pl.first = .ok x := by
  obtain ⟨-, -, -, hfree⟩ := h hv
  obtain ⟨sg, o, invert, seed, hsg, hk⟩ := hfree hm
  exact ⟨(o, invert, seed, sg.mask), by rw [Machine.freeRunSegment, Machine.definedSegment, hsg]; simp only [hk]⟩

section
variable {s : State} (h : Walkers s) {n : Lane}
include h

/-- A generator in RUNNING forms its word. -/
theorem Walkers.patternWord (running : (s.lane n).gen.state = .running) : ∃ x, patternWord s n = .ok x := by
  obtain ⟨hv, -⟩ := (h.gen n).active (by simp [running])
  have hin : (s.lane n).plan.reach.getLsbD (s.lane n).gen.pos.seg.val = true :=
    (h.gen n).within (by simp [inRun, running])
  cases hm : (s.lane n).plan.mode with
  | freeRun =>
    obtain ⟨x, hx⟩ := (h.plans n).freeRunSegment hv hm
    simp only [Machine.patternWord, hm, hx]
    exact ⟨_, rfl⟩
  | sequence =>
    obtain ⟨sg, hsg⟩ := (h.plans n).definedSegment hv hin
    simp only [Machine.patternWord, hm, hsg]
    exact ⟨_, rfl⟩

theorem Walkers.fillSlot : ∃ r, fillSlot s n = .ok r := by
  cases hs : (s.lane n).gen.state with
  | running =>
    obtain ⟨x, hx⟩ := h.patternWord hs
    simp only [Machine.fillSlot, hs, hx]
    exact ⟨_, rfl⟩
  | stopped | armed | pausing =>
    simp only [Machine.fillSlot, hs]
    exact ⟨_, rfl⟩

/-- A checker in SEARCH tests its word. -/
theorem Walkers.searchWord (w : Word) (search : (s.lane n).checker.state = .search) :
    ∃ t, searchWord s n w = .ok t := by
  obtain ⟨hv, -, hmode⟩ := (h.check n).active (by simp [search])
  have hsound : PlanSound s (checkerPlan s n) := h.plans _
  cases hm : (s.lane n).checker.mode with
  | freeRun =>
    obtain ⟨x, hx⟩ := hsound.freeRunSegment hv (hmode.symm.trans hm)
    simp only [Machine.searchWord, hm, hx]
    split <;> exact ⟨_, rfl⟩
  | sequence =>
    obtain ⟨-, -, hseq, -⟩ := hsound hv
    obtain ⟨hanchor, -⟩ := hseq (hmode.symm.trans hm)
    obtain ⟨sg, hsg⟩ := hsound.definedSegment hv hanchor
    simp only [Machine.searchWord, hm, hsg]
    exact ⟨_, rfl⟩

/-- A checker with a reference knows what to expect. -/
theorem Walkers.expected (reference : (s.lane n).checker.state = .verify ∨ (s.lane n).checker.state = .locked) :
    ∃ x, expected s n = .ok x := by
  obtain ⟨hv, -, hmode⟩ := (h.check n).active (by rcases reference with hs | hs <;> simp [hs])
  have hin := (h.check n).within reference
  have hsound : PlanSound s (checkerPlan s n) := h.plans _
  cases hm : (s.lane n).checker.mode with
  | freeRun =>
    obtain ⟨x, hx⟩ := hsound.freeRunSegment hv (hmode.symm.trans hm)
    simp only [Machine.expected, hm, hx]
    exact ⟨_, rfl⟩
  | sequence =>
    obtain ⟨sg, hsg⟩ := hsound.definedSegment hv hin
    simp only [Machine.expected, hm, hsg]
    split <;> exact ⟨_, rfl⟩

theorem Walkers.receiveAt (w : Word) : ∃ t, receiveAt s n w = .ok t := by
  cases hs : (s.lane n).checker.state with
  | off => exact ⟨s, by simp only [Machine.receiveAt, hs]⟩
  | search =>
    obtain ⟨t, ht⟩ := h.searchWord w hs
    exact ⟨t, by simp only [Machine.receiveAt, hs, ht]⟩
  | verify =>
    obtain ⟨x, hx⟩ := h.expected (.inl hs)
    simp only [Machine.receiveAt, hs, hx]
    exact ⟨_, rfl⟩
  | locked =>
    obtain ⟨x, hx⟩ := h.expected (.inr hs)
    simp only [Machine.receiveAt, hs, hx]
    exact ⟨_, rfl⟩

/-- A word at one checker is taken, and leaves the walkers sound. -/
theorem Walkers.deliverTo (src : Source) (w : Word) : ∃ t, deliverTo src w s n = .ok t ∧ Walkers t := by
  have hok : ∃ t, Machine.deliverTo src w s n = .ok t := by
    unfold Machine.deliverTo
    split
    · exact h.receiveAt w
    · exact ⟨s, rfl⟩
  obtain ⟨t, ht⟩ := hok
  exact ⟨t, ht, h.word (.deliverTo ht) (.deliverTo ht)⟩

theorem Walkers.deliver (src : Source) (w : Word) : ∃ t, deliver src w s = .ok t := by
  obtain ⟨s0, h0, hs0⟩ := h.deliverTo (n := 0) src w
  obtain ⟨s1, h1, hs1⟩ := hs0.deliverTo (n := 1) src w
  obtain ⟨s2, h2, hs2⟩ := hs1.deliverTo (n := 2) src w
  obtain ⟨t, h3, -⟩ := hs2.deliverTo (n := 3) src w
  exact ⟨t, by simp only [Machine.deliver, h0, h1, h2, h3]⟩

theorem Walkers.transmit : ∃ t, transmit s n = .ok t := by
  obtain ⟨⟨w, u⟩, hu⟩ := h.fillSlot (n := n)
  have hfilled : Walkers u := h.genSlot (.fillSlot hu)
  have hplaced : Walkers (placeWord u n w) := hfilled.modLane n rfl (hfilled.gen n) (hfilled.check n)
  obtain ⟨t, ht⟩ := hplaced.deliver (.loop n) w
  exact ⟨t, by simp only [Machine.transmit, hu, ht]⟩

end

theorem walkOutcome_answers {r : Except Fault State} (h : ∃ t, r = .ok t) : ∃ t, walkOutcome r = .next t := by
  obtain ⟨t, rfl⟩ := h
  exact ⟨t, rfl⟩

/-- Settles O56: only a walker's word and RESULT_READ can stop the part, and R35 and R151 exclude both. -/
theorem soundStatesNeverStop : Obligations.SoundStatesNeverStop := by
  intro c s hw hwalkers hrings
  have h := walkersSound_iff.mp hwalkers
  cases c with
  | transmitSlot n => exact walkOutcome_answers h.transmit
  | receiveWord m w => exact walkOutcome_answers (h.deliver (.external m) w)
  | resultRead f args => exact execResultRead_answers hrings
  | trigEdge n level =>
    rw [exec, execTrigEdge]
    split <;> exact ⟨_, rfl⟩
  | deviceReset | gateEdge | pauseEnd | wordLimitReached | tick | sliceClose | intervalExpiry | chainStart
  | holdoffExpiry | resetNReturnsHigh => exact ⟨_, rfl⟩
  | _ => exact exec_answers hw rfl (fun _ => by simp) s

end Sys2Proof.Machine
end

section
/-!
PROOF. The reads of a lane (R33, R60, R69, R74, R99, R112, R138, R156): their replies as the statements spell them, and
the wire forms and codes of what they return (R161, R179, Tables 11-1 and 11-3).
-/

namespace Sys2Proof.Machine

/-! ### Bytes and fields (R179) -/

/-- The bytes of a number, most significant first. -/
theorem be_getElem? (k v : Nat) {j : Nat} (hj : j < k) :
    (be k v)[j]? = some (BitVec.ofNat 8 (v / 256 ^ (k - 1 - j))) := by
  induction k generalizing j with
  | zero => omega
  | succ k ih =>
    cases j with
    | zero => rfl
    | succ j =>
      have he : k + 1 - 1 - (j + 1) = k - 1 - j := by omega
      rw [be, List.getElem?_cons_succ, ih (by omega), he]

/-- A field one byte longer. -/
theorem fieldAt_succ {bs : List Byte} {i k : Nat} (h : i + k < bs.length) :
    fieldAt bs i (k + 1) = fieldAt bs i k * 256 + (byteAt bs (i + k)).toNat := by
  have hget : (bs.drop i)[k]? = some (byteAt bs (i + k)) := by
    rw [List.getElem?_drop, byteAt, List.getD_eq_getElem?_getD, List.getElem?_eq_getElem h, Option.getD_some]
  rw [fieldAt, List.take_add_one, hget, Option.toList_some, ofBe_append, ofBe_singleton, List.length_singleton, pow_one,
    fieldAt]

theorem laneCode_toNat (n : Lane) : (laneCode n).toNat = n.val := by
  rw [laneCode, BitVec.toNat_ofNat, Nat.mod_eq_of_lt (by omega)]

theorem segIndexCode_toNat (i : Fin 64) : (segIndexCode i).toNat = i.val := by
  rw [segIndexCode, BitVec.toNat_ofNat, Nat.mod_eq_of_lt (by omega)]

/-! ### Wire forms -/

theorem runTotalsBytes_eq (r : RunTotals) : runTotalsBytes r =
    be 7 r.compared.value.toNat ++ be 6 r.errored.value.toNat ++ be 5 r.words.value.toNat ++ be 4 r.gains.value.toNat ++
      be 4 r.losses.value.toNat ++
      [yesNo r.compared.saturated, yesNo r.errored.saturated, yesNo r.words.saturated, yesNo r.gains.saturated,
        yesNo r.losses.saturated, r.compared.tally, r.errored.tally, r.words.tally, r.gains.tally, r.losses.tally] := by
  simp [runTotalsBytes, beOf]

theorem intervalAccBytes_eq (a : IntervalAcc) : intervalAccBytes a =
    be 6 a.compared.value.toNat ++ be 5 a.errored.value.toNat ++ be 4 a.words.value.toNat ++
      [yesNo a.compared.saturated, yesNo a.errored.saturated, yesNo a.words.saturated, a.compared.tally,
        a.errored.tally, a.words.tally] ++
      be 2 a.gains.toNat ++ be 2 a.losses.toNat ++ be 4 a.injected.toNat ++
      (match a.firstError with
      | some v => 1 :: be 6 v.toNat
      | none => List.replicate 7 0) := by
  cases h : a.firstError with
  | none => simp [intervalAccBytes, optional, beOf, h] <;> rfl
  | some v => simp [intervalAccBytes, optional, beOf, h]

theorem routeBytes_eq (r : Route) : routeBytes r =
    (match r.source with
      | .external m => [0, laneCode m]
      | .loop m => [1, laneCode m]) ++ [match r.associate with | some g => laneCode g | none => 255] := by
  unfold routeBytes
  cases r.associate <;> rfl

theorem timerConfigBytes_eq (c : TimerConfig) (free : Byte) : timerConfigBytes c free =
    [timerUnitCode c.unit] ++ be 3 c.length.toNat ++ be 2 c.slice.toNat ++ [timerModeCode c.mode] ++
      (match c.trigger with
      | .soft => ([0, free] : List Byte)
      | .gateRise => [1, free]
      | .gateFall => [2, free]
      | .gateBoth => [3, free]
      | .levelHigh => [4, free]
      | .levelLow => [5, free]
      | .chain m => [6, laneCode m]) ++
      be 2 c.alarm.tm.toNat ++ [c.alarm.tx] ++ be 2 c.severe.tm.toNat ++ [c.severe.tx] := by
  cases h : c.trigger <;> simp [timerConfigBytes, thresholdBytes, beOf, gateTriggerCode, chainCode, h]

theorem injectionBytes_eq (x : Injection) (f1 f2 f3 f4 f5 : Byte) : injectionBytes x [f1, f2, f3, f4, f5] =
    match x with
    | .off => [0, f1, f2, f3, f4, f5]
    | .single bit => [1, BitVec.ofNat 8 bit.toNat, f2, f3, f4, f5]
    | .burst bit len => [2, BitVec.ofNat 8 bit.toNat, BitVec.ofNat 8 len.toNat, f3, f4, f5]
    | .periodic bit period => [3, BitVec.ofNat 8 bit.toNat, f2] ++ be 3 period.toNat := by
  cases x <;> rfl

/-! ### The eight reads -/

section
variable {s : State} {p : Port} (h : FramesTaken s p) (n : Lane)
include h

/-- A read answers over the state it finds. -/
theorem laneCommand_answered {code : Byte} {body : Lane → State → Answer} {st : Status} {fields : List Byte}
    (hb : body n (s.shifted p 2) = .done st fields (s.shifted p 2)) :
    laneCommand p.frame code false [laneCode n] body s =
      .next (replied p 2 { status := st, code := code, fields := fields } s) := by
  rw [laneCommand_read h, hb, settle_done, shifted_respond]

/-- A read whose reply holds free bytes (logs 8 and 9). -/
theorem laneCommand_answered_free {code : Byte} {body : Lane → State → Answer} {fields : List Byte} {k : Nat}
    (hb : body n (s.shifted p 2) = .done .ok fields ((s.shifted p 2).useFree k)) :
    laneCommand p.frame code false [laneCode n] body s =
      .next ((replied p 2 { status := .ok, code := code, fields := fields } s).useFree k) := by
  rw [laneCommand_read h, hb, settle_done, ← shifted_respond]
  cases p <;> rfl

theorem exec_planRead : exec (.planRead p.frame [laneCode n]) s =
    .next (replied p 2
      { status := .ok, code := 0x22,
        fields := laneCode n :: (planBytes (s.lane n).plan ++ [yesNo (s.lane n).plan.valid,
          verdictCode (s.lane n).plan.verdict, segIndexCode (s.lane n).plan.verdictSeg] ++
          beOf 8 (s.lane n).plan.reach) } s) := by
  rw [exec, execPlanRead]
  exact laneCommand_answered h n (by rw [State.shifted_lane]; rfl)

theorem exec_laneStatus : exec (.laneStatus p.frame [laneCode n]) s =
    .next (replied p 2 { status := .ok, code := 0x2B, fields := laneStatusFields n (s.lane n) } s) := by
  rw [exec, execLaneStatus]
  exact laneCommand_answered h n (by rw [State.shifted_lane])

theorem exec_injectRead : exec (.injectRead p.frame [laneCode n]) s =
    .next ((replied p 2
      { status := .ok, code := 0x31,
        fields := laneCode n :: (injectionBytes (s.lane n).inject.setting (freeBytes s 5) ++
          beOf 3 (s.lane n).inject.periodCount ++ injectTotalsBytes (s.lane n).inject) } s).useFree 5) := by
  rw [exec, execInjectRead]
  exact laneCommand_answered_free h n (by rw [State.shifted_lane, freeBytes_shifted]; rfl)

theorem exec_sigRead : exec (.sigRead p.frame [laneCode n]) s =
    .next (replied p 2 { status := .ok, code := 0x34, fields := sigFields (s.lane n).sig } s) := by
  rw [exec, execSigRead]
  exact laneCommand_answered h n (by rw [State.shifted_lane])

theorem exec_checkStatus : exec (.checkStatus p.frame [laneCode n]) s =
    .next (replied p 2 { status := .ok, code := 0x3C, fields := checkStatusFields s n } s) := by
  rw [exec, execCheckStatus]
  refine laneCommand_answered h n ?_
  simp only [checkStatusFields, shownMode, State.shifted_lane, checkerPlan_shifted]

theorem exec_totalsRead : exec (.totalsRead p.frame [laneCode n]) s =
    .next (replied p 2 { status := .ok, code := 0x40, fields := totalsReadFields n (s.lane n) } s) := by
  rw [exec, execTotalsRead]
  exact laneCommand_answered h n (by rw [State.shifted_lane])

theorem exec_gateStatus : exec (.gateStatus p.frame [laneCode n]) s =
    .next ((replied p 2
      { status := .ok, code := 0x4C,
        fields := gateStatusFields n (s.lane n) (Config.freeByte s.freeCount) } s).useFree
      (chainFree (s.lane n).timer.config.trigger)) := by
  rw [exec, execGateStatus]
  exact laneCommand_answered_free h n (by rw [State.shifted_lane, State.shifted_freeCount])

theorem exec_resultPeek : exec (.resultPeek p.frame [laneCode n]) s =
    .next (replied p 2
      { status := if (s.lane n).ring.records = [] then .empty else .ok
        code := 0x51
        fields := laneCode n :: (be 1 (s.lane n).ring.records.length ++ be 4 (s.lane n).ring.nextSeq.toNat ++
          (match (s.lane n).ring.records.getLast? with
          | some r => recordBytes r
          | none => [])) } s) := by
  rw [exec, execResultPeek]
  refine laneCommand_answered h n ?_
  rw [State.shifted_lane]
  cases hlast : (s.lane n).ring.records.getLast? with
  | none =>
    have hnil := List.getLast?_eq_none_iff.mp hlast
    simp only [hnil, if_true, List.append_nil] <;> rfl
  | some r =>
    have hne : (s.lane n).ring.records ≠ [] := fun hnil => by simp [hnil] at hlast
    simp only [hlast, hne, if_false] <;> rfl

end

/-! ### The fields of the replies -/

theorem laneStatusFields_eq (n : Lane) (l : LaneState) : laneStatusFields n l =
    [laneCode n, genStateCode l.gen.state, yesNo l.gen.pendingTrigger, segIndexCode l.gen.pos.seg, l.gen.pos.r] ++
      be 2 l.gen.pos.i.toNat ++ be 4 l.gen.pos.p.toNat ++ be 2 l.gen.pos.pause.toNat ++
      be 6 l.gen.wordsEmitted.toNat ++ be 4 l.gen.passesDone.toNat ++ be 4 l.gen.runsCompleted.toNat ++
      be 6 l.inject.bits.toNat ++ be 5 l.inject.words.toNat := by
  simp [laneStatusFields, posBytes, beOf]

theorem sigFields_eq (g : Signature) : sigFields g = be 4 g.reg.toNat ++
    (match g.pass with
    | some q => 1 :: (be 4 q.value.toNat ++ be 4 q.pass.toNat ++ be 4 q.run.toNat)
    | none => List.replicate 13 0) := by
  unfold sigFields
  cases g.pass <;> rfl

theorem checkStatusFields_eq (s : State) (n : Lane) (l : LaneState) (hl : l = s.lane n) : checkStatusFields s n =
    [laneCode n, checkStateCode l.checker.state, laneCode l.checker.config.planLane,
        BitVec.ofNat 8 l.checker.config.verify.toNat, BitVec.ofNat 8 l.checker.config.threshold.toNat,
        overflowCode l.checker.config.overflow,
        planModeCode (if l.checker.state = .off then (checkerPlan s n).mode else l.checker.mode)] ++
      routeBytes l.route ++
      [BitVec.ofNat 8 l.checker.progress.toNat, BitVec.ofNat 8 l.checker.slip.toNat,
        segIndexCode l.checker.pos.seg, l.checker.pos.r] ++ be 2 l.checker.pos.i.toNat ++
      be 4 l.checker.pos.p.toNat ++ be 2 l.checker.pos.pause.toNat := by
  subst hl
  simp [checkStatusFields, checkConfigBytes, shownMode, posBytes, beOf]

/-- Settles O47: each read answers over the state it finds, and the replies are spelled field by field. -/
theorem statusReadsChangeNothing : Obligations.StatusReadsChangeNothing := by
  refine ⟨?_, ⟨?_, ?_, fun _ => rfl, rfl, rfl, rfl, rfl, rfl, rfl, rfl, rfl, rfl, rfl, rfl, rfl, rfl, laneCode_toNat,
    segIndexCode_toNat⟩, fun _ => rfl, fun _ => rfl, runTotalsBytes_eq, intervalAccBytes_eq, routeBytes_eq,
    fun _ => rfl, timerConfigBytes_eq, injectionBytes_eq⟩
  · rintro p n s l h rfl
    refine ⟨exec_planRead h n, ?_, ?_, ?_, ?_, exec_totalsRead h n, exec_gateStatus h n, exec_resultPeek h n⟩
    · rw [exec_laneStatus h n, laneStatusFields_eq]
    · rw [exec_injectRead h n, injectTotalsBytes, ← List.append_assoc]
      rfl
    · exact (exec_sigRead h n).trans (congrArg (fun fields =>
        (Host.Outcome.next (replied p 2 { status := .ok, code := 0x34, fields := fields } s) :
          Host.Outcome State Fault Refusal)) (sigFields_eq (s.lane n).sig))
    · rw [exec_checkStatus h n, checkStatusFields_eq s n _ rfl]
  · exact fun k v => ⟨length_be k v, fun j => be_getElem? k v⟩
  · exact fun bs i k => ⟨rfl, by simp [fieldAt, ofBe], fieldAt_succ⟩

end Sys2Proof.Machine
end

section
/-!
PROOF. A transmit slot as a whole (R57): the word with its flipped bits, the state `emitted` that it leaves before the
walk goes on, the walk, and the offer to the looped checkers. What triggers, slots and words do is read from here.
-/

namespace Sys2Proof.Machine

/-! ### The pattern word (R46, R53) -/

theorem definedSegment_of_record {s : State} {i : Fin 64} {sg : Segment} (h : s.record i = some sg) :
    definedSegment s i = .ok sg := by
  rw [definedSegment, h]

/-- Where a running generator stands after its word: nowhere new in FREE-RUN mode, on its walk in SEQUENCE mode. -/
def StepIs (s : State) (n : Lane) (step : Option Advance) : Prop :=
  ((s.lane n).plan.mode = .freeRun ∧ step = none) ∨
  ((s.lane n).plan.mode = .sequence ∧ ∃ sg, s.record (s.lane n).gen.pos.seg = some sg ∧
    step = some (advance sg (s.lane n).gen.pos))

/-- The pattern word that the statements name is the one that the slot forms. -/
theorem PatternWordIs.patternWord {s : State} {n : Lane} {w : Word} {counted : Bool} {prbs : BitVec 32}
    (h : PatternWordIs s n w counted prbs) :
    ∃ step, StepIs s n step ∧
      patternWord s n = .ok { word := w, counted := counted, step := step, prbs := prbs } := by
  rcases h with ⟨hm, sg, hsg, rfl, rfl, rfl⟩ | ⟨hm, sg, o, invert, seed, hsg, hk, rfl, rfl, rfl⟩
  · refine ⟨_, .inr ⟨hm, sg, hsg, rfl⟩, ?_⟩
    simp only [Machine.patternWord, hm, definedSegment_of_record hsg]
    rfl
  · refine ⟨_, .inl ⟨hm, rfl⟩, ?_⟩
    simp only [Machine.patternWord, hm, freeRunSegment, definedSegment_of_record hsg, hk]

/-- A pattern word formed is one that the statements name. -/
theorem patternWord_is {s : State} {n : Lane} {x : PatternWord} (h : patternWord s n = .ok x) :
    PatternWordIs s n x.word x.counted x.prbs := by
  simp only [patternWord] at h
  split at h
  · rename_i hm
    split at h <;> cases h
    rename_i o invert seed mask hf
    simp only [freeRunSegment] at hf
    split at hf
    · cases hf
    · split at hf <;> cases hf
      exact .inr ⟨hm, _, o, invert, seed, definedSegment_ok ‹_›, ‹_›, rfl, rfl, rfl⟩
  · rename_i hm
    split at h <;> cases h
    exact .inl ⟨hm, _, definedSegment_ok ‹_›, rfl, rfl, rfl⟩

/-! ### The walk (R46) -/

theorem Onward.advance {sg : Segment} {pos q : Pos} (h : Onward sg pos q) : advance sg pos = .onward q := by
  rcases h with ⟨hi, rfl⟩ | ⟨hi, hr, rfl⟩ | ⟨hi, hr, t, ht, rfl⟩
  · rw [Machine.advance, if_pos hi]
  · rw [Machine.advance, if_neg (by omega), if_pos hr]
  · rw [Machine.advance, if_neg (by omega), if_neg (by omega), ht]

theorem AtPassEnd.advance {sg : Segment} {pos : Pos} (h : AtPassEnd sg pos) : advance sg pos = .passEnd := by
  obtain ⟨hi, hr, hn⟩ := h
  rw [Machine.advance, if_neg (by omega), if_neg (by omega), hn]

/-! ### Injection and the bus (R57, R62, R68, R70, R71) -/

/-- Every word has its flips: the statements' premise can be met. -/
theorem flipsAre_exists (s : State) (n : Lane) (counted : Bool) : ∃ flips used, FlipsAre s n counted flips used := by
  cases counted with
  | true => exact ⟨_, _, .inl ⟨rfl, rfl⟩⟩
  | false => exact ⟨_, _, .inr ⟨rfl, rfl, rfl⟩⟩

/-- What the flipped bits of a word are credited to: the running interval of an associated lane (R70). -/
theorem creditLane_eq (n : Lane) (k : Nat) (l : LaneState) : creditLane n k l =
    if l.route.associate = some n ∧ counting l = true then
      { l with acc := { l.acc with interval := { l.acc.interval with
        injected := BitVec.ofNat 32 (min (l.acc.interval.injected.toNat + k) (2 ^ 32 - 1)) } } }
    else l := by
  simp only [creditLane, Bool.and_eq_true, decide_eq_true_eq]
  rfl

theorem creditLane_zero (n : Lane) (l : LaneState) : creditLane n 0 l = l := by
  unfold creditLane LaneState.modAcc
  split
  · simp only [saturatingAdd_zero]
  · rfl

/-- The credit does not look at the injection unit. -/
theorem creditLane_inject (n : Lane) (k : Nat) (l : LaneState) (u : InjectUnit) :
    creditLane n k { l with inject := u } = { creditLane n k l with inject := u } := by
  have hc : counting { l with inject := u } = counting l := rfl
  simp only [creditLane_eq, hc]
  split <;> rfl

/-- An emitted word leaves its own lane credited, injected, folded, counted and on the bus, and every other lane
credited. -/
theorem emitted_lane (n m : Lane) (w flips : Word) (used : InjectUnit) (prbs : BitVec 32) (s : State) :
    (emitted n w flips used prbs s).lane m =
      if m = n then
        { creditLane n (ones flips) (s.lane n) with
          gen := { (s.lane n).gen with wordsEmitted := (s.lane n).gen.wordsEmitted + 1, prbs := prbs }
          inject := addInjected used (ones flips)
          sig := { (s.lane n).sig with reg := foldWord (s.lane n).sig.reg w }
          txBus := w }
      else creditLane n (ones flips) (s.lane m) := by
  simp only [creditLane_eq]
  exact Vector.getElem_ofFn ..

section
variable (n : Lane) (w flips : Word) (used : InjectUnit) (prbs : BitVec 32) (s : State)

@[simp] theorem emitted_segs : (emitted n w flips used prbs s).segs = s.segs := rfl
@[simp] theorem emitted_store : (emitted n w flips used prbs s).store = s.store := rfl
@[simp] theorem emitted_holders : (emitted n w flips used prbs s).holders = s.holders := rfl
@[simp] theorem emitted_record : (emitted n w flips used prbs s).record = s.record := rfl
@[simp] theorem emitted_port (p : Port) : (emitted n w flips used prbs s).port p = s.port p := by cases p <;> rfl

/-- What a word leaves of its generator. -/
@[simp] theorem emitted_gen : ((emitted n w flips used prbs s).lane n).gen =
    { (s.lane n).gen with wordsEmitted := (s.lane n).gen.wordsEmitted + 1, prbs := prbs } := by
  rw [emitted_lane, if_pos rfl]

end

theorem LaneKept.emitted (n m : Lane) (w flips : Word) (used : InjectUnit) (prbs : BitVec 32) (s : State) :
    LaneKept (s.lane m) ((emitted n w flips used prbs s).lane m) := by
  have h := LaneKept.creditLane n (ones flips) (s.lane m)
  rw [emitted_lane]
  split
  · subst m
    exact ⟨h.plan, h.route, h.trigLine, h.gateLine, h.timerConfig, h.checkConfig⟩
  · exact h

@[simp] theorem creditLane_timer (n : Lane) (k : Nat) (l : LaneState) : (creditLane n k l).timer = l.timer := by
  unfold creditLane
  split <;> rfl

@[simp] theorem creditLane_checker (n : Lane) (k : Nat) (l : LaneState) : (creditLane n k l).checker = l.checker :=
  (IntervalKept.creditLane n k l).checker

@[simp] theorem creditLane_ring (n : Lane) (k : Nat) (l : LaneState) : (creditLane n k l).ring = l.ring := by
  unfold creditLane
  split <;> rfl

@[simp] theorem emitted_timer (n m : Lane) (w flips : Word) (used : InjectUnit) (prbs : BitVec 32) (s : State) :
    ((emitted n w flips used prbs s).lane m).timer = (s.lane m).timer := by
  rw [emitted_lane]
  split
  · subst m; simp only [creditLane_timer]
  · simp only [creditLane_timer]

/-- What the injection unit returns, and what it leaves of the lanes: an uncounted word passes it by. -/
theorem FlipsAre.inject {s : State} {n : Lane} {counted : Bool} {flips : Word} {used : InjectUnit}
    (h : FlipsAre s n counted flips used) (w : Word) :
    (inject s n w counted).1 = w ^^^ flips ∧
    ∀ m, (inject s n w counted).2.lane m =
      if m = n then { creditLane n (ones flips) (s.lane n) with inject := addInjected used (ones flips) }
      else creditLane n (ones flips) (s.lane m) := by
  rcases h with ⟨rfl, he⟩ | ⟨rfl, rfl, rfl⟩
  · have hi : Machine.inject s n w true = (w ^^^ flips,
        credit (s.modLane n fun l => { l with inject := addInjected used (ones flips) }) n (ones flips)) := by
      simp only [Machine.inject, if_true, he]
    rw [hi]
    refine ⟨rfl, fun m => ?_⟩
    rw [credit_lane, State.modLane_lane]
    split
    · exact creditLane_inject ..
    · rfl
  · have hi : Machine.inject s n w false = (w, s) := rfl
    rw [hi]
    refine ⟨BitVec.xor_zero.symm, fun m => ?_⟩
    simp only [ones_zero, creditLane_zero, addInjected, if_true]
    split
    · subst m; rfl
    · rfl

/-- The state that a word leaves before the walk goes on, with the word on the bus (R57 steps 1 to 4). -/
theorem FlipsAre.emitted {s : State} {n : Lane} {counted : Bool} {flips : Word} {used : InjectUnit}
    (h : FlipsAre s n counted flips used) (w : Word) (prbs : BitVec 32) :
    placeWord (countSlot ((Machine.inject s n w counted).2.modLane n fun l =>
      { l with
        sig := { l.sig with reg := foldWord l.sig.reg (w ^^^ flips) }
        gen := { l.gen with prbs := prbs } }) n) n (w ^^^ flips) = emitted n (w ^^^ flips) flips used prbs s := by
  have hslot := SlotStep.inject s n w counted
  have hport : ∀ p, (Machine.inject s n w counted).2.port p = s.port p := fun p => by
    unfold Machine.inject
    split <;> cases p <;> rfl
  refine State.ext_parts (fun i => ?_) hslot.store (fun m => ?_) (fun p => ?_) (fun r => ?_) hslot.resetPhase
    hslot.freeCount hslot.pending
  · exact congrArg (·[i]) hslot.segs
  · obtain ⟨-, hl⟩ := h.inject w
    have hk := IntervalKept.creditLane n (ones flips) (s.lane n)
    simp only [placeWord, countSlot, State.modLane_lane, emitted_lane, if_true, LaneState.modGen]
    split
    · rw [hl n, if_pos rfl]
      simp only [hk.gen, hk.sig]
    · rw [hl m, if_neg ‹_›]
  · simp only [placeWord, countSlot, State.modLane_port, emitted_port, hport]
  · exact congrArg (·[r]) hslot.holders

/-! ### The word placed before the walk goes on -/

theorem modLane_modLane (s : State) (n : Lane) (f g : LaneState → LaneState) :
    (s.modLane n f).modLane n g = s.modLane n fun l => g (f l) := by
  refine State.ext_parts (fun _ => rfl) rfl (fun m => ?_) (fun p => by simp only [State.modLane_port]) (fun _ => rfl) rfl
    rfl rfl
  simp only [State.modLane_lane, if_true]
  split <;> rfl

section
variable (s : State) (n : Lane) (w : Word)

/-- A change that does not concern the transmit bus may come before the word is placed or after. -/
theorem placeWord_modLane {f : LaneState → LaneState} (hf : ∀ l, { f l with txBus := w } = f { l with txBus := w }) :
    placeWord (s.modLane n f) n w = (placeWord s n w).modLane n f := by
  simp only [placeWord, modLane_modLane, hf]

theorem placeWord_raise (e : Event) : placeWord (s.raise e) n w = (placeWord s n w).raise e := rfl

@[simp] theorem placeWord_lane : (placeWord s n w).lane n = { s.lane n with txBus := w } := by
  rw [placeWord, State.modLane_lane, if_pos rfl]

theorem placeWord_wordLimitIfReached :
    placeWord (wordLimitIfReached s n) n w = wordLimitIfReached (placeWord s n w) n := by
  simp only [wordLimitIfReached, placeWord_lane]
  split
  · rw [placeWord_raise, placeWord_modLane _ _ _ fun _ => rfl]
  · rfl

theorem placeWord_beginRun : placeWord (beginRun s n) n w = beginRun (placeWord s n w) n :=
  placeWord_modLane _ _ _ fun _ => rfl

theorem placeWord_endRunByPasses : placeWord (endRunByPasses s n) n w = endRunByPasses (placeWord s n w) n := by
  simp only [endRunByPasses, placeWord_lane]
  split
  · rw [placeWord_beginRun, placeWord_modLane _ _ _ fun _ => rfl]
  · rw [placeWord_raise, placeWord_modLane _ _ _ fun _ => rfl]

theorem placeWord_endPass : placeWord (endPass s n) n w = endPass (placeWord s n w) n := by
  have hlatch : placeWord (s.modLane n latchPass) n w = (placeWord s n w).modLane n latchPass :=
    placeWord_modLane _ _ _ fun _ => rfl
  have hremain : passesRemain ((placeWord (s.modLane n latchPass) n w).lane n) =
      passesRemain ((s.modLane n latchPass).lane n) := by
    rw [placeWord_lane]
    rfl
  simp only [endPass, ← hlatch, hremain]
  split
  · exact placeWord_modLane _ _ _ fun _ => rfl
  · exact placeWord_endRunByPasses ..

theorem placeWord_afterPatternWord (step : Option Advance) :
    placeWord (afterPatternWord s n step) n w = afterPatternWord (placeWord s n w) n step := by
  simp only [afterPatternWord, placeWord_lane]
  split
  · exact placeWord_wordLimitIfReached ..
  · split
    · rfl
    · exact placeWord_modLane _ _ _ fun _ => rfl
    · exact placeWord_endPass ..

end

/-! ### The slot (R57) -/

/-- A slot in RUNNING: the word goes out with its flips, the walk goes on, and the looped checkers are offered the
word. -/
theorem transmit_running {s : State} {n : Lane} {x : PatternWord} {flips : Word} {used : InjectUnit}
    (running : (s.lane n).gen.state = .running) (hx : patternWord s n = .ok x)
    (hflips : FlipsAre s n x.counted flips used) :
    transmit s n = deliver (.loop n) (x.word ^^^ flips)
      (afterPatternWord (emitted n (x.word ^^^ flips) flips used x.prbs s) n x.step) := by
  have hw := (hflips.inject x.word).1
  simp only [transmit, fillSlot, running, hx, runningSlot, hw, placeWord_afterPatternWord, hflips.emitted]

/-- A slot in PAUSING carries the idle word and uses up a pause word. -/
theorem transmit_pausing {s : State} {n : Lane} (pausing : (s.lane n).gen.state = .pausing) :
    transmit s n = deliver (.loop n) (s.lane n).plan.idleWord
      (placeWord (pausingSlot s n) n (s.lane n).plan.idleWord) := by
  simp only [transmit, fillSlot, pausing]

/-- A lane with one slot of its pause used up, whatever then follows (R48, R59). -/
def LaneState.pauseWordUsed (l : LaneState) : LaneState :=
  { l with gen := { l.gen with
    pos := { l.gen.pos with pause := BitVec.ofNat 16 (l.gen.pos.pause.toNat - 1) }
    wordsEmitted := l.gen.wordsEmitted + 1 } }

/-- A slot of a pause uses up a pause word, and then the word limit falls or the pause may end. -/
theorem pausingSlot_eq (s : State) (n : Lane) : pausingSlot s n =
    (wordLimitIfReached (s.modLane n LaneState.pauseWordUsed) n).modLane n pauseEndIfDue := by
  simp only [pausingSlot, countSlot, modLane_modLane]
  rfl

/-- A pause that may end ends with its last pause word (R48). -/
theorem pauseEndIfDue_pausing {l : LaneState} (pausing : l.gen.state = .pausing) : pauseEndIfDue l =
    { l with gen := { l.gen with state := if l.gen.pos.pause = 0 then .running else .pausing } } := by
  simp only [pauseEndIfDue, pausing, beq_self_eq_true, Bool.true_and, beq_iff_eq]
  split
  · rfl
  · rw [← pausing]

/-- A slot outside a run carries the idle word. -/
theorem transmit_idle {s : State} {n : Lane} (idle : (s.lane n).gen.state = .stopped ∨ (s.lane n).gen.state = .armed) :
    transmit s n = deliver (.loop n) (s.lane n).plan.idleWord (placeWord s n (s.lane n).plan.idleWord) := by
  rcases idle with h | h <;> simp only [transmit, fillSlot, h]

/-- All that a slot can do before the looped checkers take its word. -/
theorem transmit_cases {s t : State} {n : Lane} (h : transmit s n = .ok t) : ∃ w u, deliver (.loop n) w u = .ok t ∧
    (u = placeWord s n w ∨ ((s.lane n).gen.state = .pausing ∧ u = placeWord (pausingSlot s n) n w) ∨
      ∃ flips used prbs step, (s.lane n).gen.state = .running ∧
        u = afterPatternWord (emitted n w flips used prbs s) n step) := by
  cases hs : (s.lane n).gen.state with
  | stopped => exact ⟨_, _, transmit_idle (.inl hs) ▸ h, .inl rfl⟩
  | armed => exact ⟨_, _, transmit_idle (.inr hs) ▸ h, .inl rfl⟩
  | pausing => exact ⟨_, _, transmit_pausing hs ▸ h, .inr (.inl ⟨rfl, rfl⟩)⟩
  | running =>
    cases hx : patternWord s n with
    | error f => simp only [transmit, fillSlot, hs, hx] at h; cases h
    | ok x =>
      obtain ⟨flips, used, hflips⟩ := flipsAre_exists s n x.counted
      exact ⟨_, _, transmit_running hs hx hflips ▸ h, .inr (.inr ⟨flips, used, x.prbs, x.step, rfl, rfl⟩)⟩

/-! ### What the walk leaves alone -/

/-- A lane of which at most the generator, the pass signature and the injection unit's period count differ. -/
def WalkKept (l k : LaneState) : Prop :=
  k = { l with
    gen := k.gen
    sig := { l.sig with pass := k.sig.pass }
    inject := { l.inject with periodCount := k.inject.periodCount } }

theorem WalkKept.wordLimitIfReached (s : State) (n : Lane) :
    WalkKept (s.lane n) ((wordLimitIfReached s n).lane n) := by
  unfold Machine.wordLimitIfReached
  split
  · rw [State.raise_lane, State.modLane_lane, if_pos rfl]
    rfl
  · rfl

theorem WalkKept.endPass (s : State) (n : Lane) : WalkKept (s.lane n) ((endPass s n).lane n) := by
  simp only [Machine.endPass, endRunByPasses, beginRun]
  split
  · simp only [State.modLane_lane, if_true]
    rfl
  · split <;> simp only [State.raise_lane, State.modLane_lane, if_true] <;> rfl

/-- The walk after a word reaches the generator, the pass signature and the period count of its lane. -/
theorem WalkKept.afterPatternWord (s : State) (n : Lane) (step : Option Advance) :
    WalkKept (s.lane n) ((afterPatternWord s n step).lane n) := by
  unfold Machine.afterPatternWord
  split
  · exact .wordLimitIfReached s n
  · split
    · rfl
    · rw [State.modLane_lane, if_pos rfl]
      rfl
    · exact .endPass s n

theorem wordLimitIfReached_lane_ne {n m : Lane} (h : m ≠ n) (s : State) : (wordLimitIfReached s n).lane m = s.lane m := by
  unfold wordLimitIfReached
  split
  · rw [State.raise_lane, modLane_lane_ne h]
  · rfl

theorem endPass_lane_ne {n m : Lane} (h : m ≠ n) (s : State) : (endPass s n).lane m = s.lane m := by
  simp only [endPass, endRunByPasses, beginRun]
  split
  · simp only [modLane_lane_ne h]
  · split <;> simp only [State.raise_lane, modLane_lane_ne h]

/-- The walk after a word reaches no other lane. -/
theorem afterPatternWord_lane_ne {n m : Lane} (h : m ≠ n) (s : State) (step : Option Advance) :
    (afterPatternWord s n step).lane m = s.lane m := by
  unfold afterPatternWord
  split
  · exact wordLimitIfReached_lane_ne h s
  · split
    · rfl
    · exact modLane_lane_ne h ..
    · exact endPass_lane_ne h s

theorem pausingSlot_lane_ne {n m : Lane} (h : m ≠ n) (s : State) : (pausingSlot s n).lane m = s.lane m := by
  simp only [pausingSlot, countSlot, modLane_lane_ne h, wordLimitIfReached_lane_ne h]

end Sys2Proof.Machine
end

section
/-!
PROOF. Nothing is left due or pending (R44, R48, R51, R124, R130, R131, R173, R183): what a step may do to a timer
(`TimerMove`), to a run (`RunMove`) and to a hold-off timer, each in one composable form.
-/

namespace Sys2Proof.Machine

/-! ### Moves of a timer -/

/-- A timer whose slice and interval are not left due, and whose lengths are at least 1 (R117, R130, R131). -/
structure TimerSettled (t : Timer) : Prop where
  length : 1 ≤ t.config.length.toNat
  slice : 1 ≤ t.config.slice.toNat
  below : t.state = .run → t.progress.elapsed.toNat < t.config.length.toNat ∧
    t.progress.sliceUnits.toNat < t.config.slice.toNat

/-- The offer of lane n's timer stands only while it waits on another lane, and only what stands is owed (R124, R183). -/
structure OfferSound (n : Lane) (t : Timer) : Prop where
  waits : t.chainOffer.standing = true → t.state = .wait ∧ ∃ m : Lane, m ≠ n ∧ t.config.trigger = .chain m
  owes : ∀ p : Port, t.chainOffer.owed p = true → t.chainOffer.standing = true

theorem OfferSound.of_none {n : Lane} {t : Timer} (h : t.chainOffer = .none) : OfferSound n t :=
  ⟨fun hs => absurd hs (by simp [h]), fun p hp => absurd hp (by simp [h])⟩

/-- A change of lane n's timer that leaves nothing due that was not, and no offer unsound that was sound. -/
structure TimerMove (n : Lane) (t u : Timer) : Prop where
  settled : TimerSettled t → TimerSettled u
  offer : OfferSound n t → OfferSound n u

theorem TimerMove.refl (n : Lane) (t : Timer) : TimerMove n t t := ⟨id, id⟩

theorem TimerMove.of_eq {n : Lane} {t u : Timer} (h : u = t) : TimerMove n t u := h ▸ .refl n t

theorem TimerMove.trans {n : Lane} {a b c : Timer} (h : TimerMove n a b) (g : TimerMove n b c) : TimerMove n a c :=
  ⟨g.settled ∘ h.settled, g.offer ∘ h.offer⟩

section
variable {n : Lane} {t u : Timer}

/-- A timer with its units, state, configuration and offer as they were. -/
theorem TimerMove.same (config : u.config = t.config) (state : u.state = t.state) (offer : u.chainOffer = t.chainOffer)
    (elapsed : u.progress.elapsed = t.progress.elapsed) (units : u.progress.sliceUnits = t.progress.sliceUnits) :
    TimerMove n t u where
  settled h := ⟨config ▸ h.length, config ▸ h.slice, by rw [config, state, elapsed, units]; exact h.below⟩
  offer h := ⟨by rw [config, state, offer]; exact h.waits, by rw [offer]; exact h.owes⟩

/-- Outside RUN nothing of an interval is due. -/
theorem TimerSettled.outside (config : u.config = t.config) (length : 1 ≤ t.config.length.toNat)
    (slice : 1 ≤ t.config.slice.toNat) (state : u.state ≠ .run) : TimerSettled u :=
  ⟨config ▸ length, config ▸ slice, fun hr => absurd hr state⟩

/-- At the start of an interval nothing is due. -/
theorem TimerSettled.fresh (config : u.config = t.config) (length : 1 ≤ t.config.length.toNat)
    (slice : 1 ≤ t.config.slice.toNat) (elapsed : u.progress.elapsed = 0) (units : u.progress.sliceUnits = 0) :
    TimerSettled u :=
  ⟨config ▸ length, config ▸ slice, fun _ => by rw [config, elapsed, units]; exact ⟨length, slice⟩⟩

/-- A timer that leaves RUN or WAIT. -/
theorem TimerMove.halted (config : u.config = t.config) (state : u.state ≠ .run) (offer : u.chainOffer = .none) :
    TimerMove n t u :=
  ⟨fun h => .outside config h.length h.slice state, fun _ => .of_none offer⟩

/-- A timer at the start of an interval. -/
theorem TimerMove.started (config : u.config = t.config) (offer : u.chainOffer = .none)
    (elapsed : u.progress.elapsed = 0) (units : u.progress.sliceUnits = 0) : TimerMove n t u :=
  ⟨fun h => .fresh config h.length h.slice elapsed units, fun _ => .of_none offer⟩

end

theorem startInterval_config (l : LaneState) : (startInterval l).timer.config = l.timer.config := rfl
theorem startInterval_chainOffer (l : LaneState) : (startInterval l).timer.chainOffer = .none := rfl
theorem startInterval_elapsed (l : LaneState) : (startInterval l).timer.progress.elapsed = 0 := rfl
theorem startInterval_sliceUnits (l : LaneState) : (startInterval l).timer.progress.sliceUnits = 0 := rfl

theorem setTimer_config (l : LaneState) (st : TimerState) : (l.setTimer st).timer.config = l.timer.config := rfl
theorem setTimer_state (l : LaneState) (st : TimerState) : (l.setTimer st).timer.state = st := rfl
theorem setTimer_chainOffer (l : LaneState) (st : TimerState) : (l.setTimer st).timer.chainOffer = .none := rfl

theorem TimerMove.setTimer (n : Lane) (l : LaneState) {st : TimerState} (h : st ≠ .run) :
    TimerMove n l.timer (l.setTimer st).timer :=
  .halted (setTimer_config l st) (setTimer_state l st ▸ h) (setTimer_chainOffer l st)

theorem TimerMove.startInterval (n : Lane) (l : LaneState) : TimerMove n l.timer (startInterval l).timer :=
  .started (startInterval_config l) (startInterval_chainOffer l) (startInterval_elapsed l) (startInterval_sliceUnits l)

theorem TimerMove.refreshMark (n : Lane) (l : LaneState) : TimerMove n l.timer (refreshMark l).timer :=
  .same rfl rfl rfl rfl rfl

/-- A loss of lock marks the open slice (R132). -/
theorem TimerMove.marked (n : Lane) (l : LaneState) (f : Accumulators → Accumulators) :
    TimerMove n l.timer ((l.modAcc f).modProgress fun q => { q with sliceMark := true }).timer :=
  .same rfl rfl rfl rfl rfl

theorem TimerMove.armTimer (n : Lane) (l : LaneState) : TimerMove n l.timer (armTimer l).timer := by
  unfold Machine.armTimer
  split
  · exact .startInterval n l
  · exact .setTimer n l (by decide)

theorem TimerMove.chainStartIfDue (n : Lane) (l : LaneState) : TimerMove n l.timer (chainStartIfDue l).timer := by
  unfold Machine.chainStartIfDue
  split
  · exact .startInterval n l
  · exact .refl ..

theorem TimerMove.startOwedAt (n : Lane) (p : Port) (l : LaneState) : TimerMove n l.timer (startOwedAt p l).timer := by
  rcases startOwedAt_cases p l with h | ⟨-, -, -, h⟩ <;> rw [h]
  · exact .refl ..
  · exact .startInterval n l

theorem TimerMove.gateEdgeTaken (n : Lane) (level : Level) (l : LaneState) :
    TimerMove n l.timer (gateEdgeTaken level l).timer := by
  simp only [Machine.gateEdgeTaken]
  split
  · exact .startInterval n { l with gateLine := level }
  · exact .refreshMark n { l with gateLine := level }

/-- The close of another lane reaches a timer as an offer (R124). -/
theorem TimerMove.takeOffer {n m : Lane} (h : m ≠ n) (sender : Option Port) (l : LaneState) :
    TimerMove m l.timer (takeOffer n sender l).timer := by
  rcases takeOffer_cases n sender l with he | ⟨wait, chain, he⟩ <;> rw [he]
  · exact .refl ..
  · refine ⟨fun hs => ⟨hs.length, hs.slice, hs.below⟩, fun _ => ⟨fun _ => ⟨wait, n, h.symm, chain⟩, fun _ _ => rfl⟩⟩

theorem countClass_elapsed (c : SliceClass) (q : IntervalProgress) : (countClass c q).elapsed = q.elapsed := by
  cases c <;> rfl

/-- A slice close leaves the interval's units, and opens a slice without units (R131). -/
theorem sliceCloseIfDue_timer (l : LaneState) {k : LaneState} (hk : k = sliceCloseIfDue l) :
    k.timer.config = l.timer.config ∧ k.timer.state = l.timer.state ∧ k.timer.chainOffer = l.timer.chainOffer ∧
      k.timer.progress.elapsed = l.timer.progress.elapsed ∧
      k.timer.progress.sliceUnits =
        if l.timer.state = .run ∧ l.timer.progress.sliceUnits = l.timer.config.slice then 0
        else l.timer.progress.sliceUnits := by
  subst hk
  simp only [sliceCloseIfDue, Bool.and_eq_true, beq_iff_eq]
  split
  · exact ⟨rfl, rfl, rfl, countClass_elapsed .., rfl⟩
  · exact ⟨rfl, rfl, rfl, rfl, rfl⟩

theorem TimerMove.sliceCloseIfDue (n : Lane) (l : LaneState) : TimerMove n l.timer (sliceCloseIfDue l).timer := by
  obtain ⟨hconfig, hstate, hoffer, helapsed, hunits⟩ := sliceCloseIfDue_timer l rfl
  refine ⟨fun h => ⟨hconfig ▸ h.length, hconfig ▸ h.slice, fun hr => ?_⟩, fun h => ⟨?_, hoffer ▸ h.owes⟩⟩
  · rw [hconfig, helapsed, hunits]
    refine ⟨(h.below (hstate ▸ hr)).1, ?_⟩
    split
    · exact h.slice
    · exact (h.below (hstate ▸ hr)).2
  · rw [hconfig, hstate, hoffer]
    exact h.waits

/-! ### Moves of every timer -/

/-- Every timer moves, if at all, by a `TimerMove`. -/
structure TimerStep (s t : State) : Prop where
  lane : ∀ m, TimerMove m (s.lane m).timer (t.lane m).timer

theorem TimerStep.refl (s : State) : TimerStep s s := ⟨fun _ => .refl ..⟩

theorem TimerStep.trans {a b c : State} (h : TimerStep a b) (g : TimerStep b c) : TimerStep a c :=
  ⟨fun m => (h.lane m).trans (g.lane m)⟩

/-- The timers are as they were. -/
theorem TimerStep.of_eq {s t : State} (h : ∀ m, (t.lane m).timer = (s.lane m).timer) : TimerStep s t :=
  ⟨fun m => .of_eq (h m)⟩

theorem TimerStep.raise {s t : State} (h : TimerStep s t) (e : Event) : TimerStep s (t.raise e) := ⟨h.lane⟩

theorem TimerStep.modLane (s : State) (n : Lane) {f : LaneState → LaneState}
    (h : TimerMove n (s.lane n).timer (f (s.lane n)).timer) : TimerStep s (s.modLane n f) := by
  refine ⟨fun m => ?_⟩
  rw [State.modLane_lane]
  split
  · subst m; exact h
  · exact .refl ..

theorem TimerStep.startOwed (s : State) (p : Port) : TimerStep s (s.startOwed p) := ⟨fun m => by
  rw [State.startOwed_lane]
  exact .startOwedAt m p _⟩

/-- A close that its own lane leaves by a timer that holds no offer: the other lanes are offered it. -/
theorem TimerStep.close {s t : State} {n : Lane} {cause : CloseCause} {sender : Option Port} {f : LaneState → LaneState}
    (ht : t = (closeInterval s n cause sender).modLane n f)
    (own : TimerMove n (s.lane n).timer (f ((closeInterval s n cause sender).lane n)).timer) : TimerStep s t := by
  subst ht
  refine ⟨fun m => ?_⟩
  by_cases hm : m = n
  · subst m
    rw [State.modLane_lane, if_pos rfl]
    exact own
  · rw [modLane_lane_ne hm, closeInterval_lane_ne hm]
    split
    · exact .takeOffer hm ..
    · exact .refl ..

section
variable (s : State) (n : Lane) (cause : CloseCause)

theorem closeInterval_config (sender : Option Port) :
    ((closeInterval s n cause sender).lane n).timer.config = (s.lane n).timer.config :=
  ((SlotStep.closeInterval s n cause sender).lane n).timerConfig

theorem TimerStep.closeAndStop : TimerStep s (closeAndStop s n cause) :=
  .close rfl (.halted (closeInterval_config s n cause none) (setTimer_state _ _ ▸ by decide) (setTimer_chainOffer _ _))

theorem TimerStep.closeAndRestart (sender : Option Port) : TimerStep s (closeAndRestart s n cause sender) :=
  .close rfl (.started (closeInterval_config s n cause sender) (startInterval_chainOffer _) (startInterval_elapsed _)
    (startInterval_sliceUnits _))

end

theorem TimerStep.intervalExpiryIfDue (s : State) (n : Lane) : TimerStep s (intervalExpiryIfDue s n) := by
  simp only [Machine.intervalExpiryIfDue]
  split
  · split
    · exact .closeAndStop ..
    · exact .closeAndRestart ..
  · exact .refl s

theorem TimerStep.stopTimer (s : State) (n : Lane) : TimerStep s (stopTimer s n) := by
  unfold Machine.stopTimer
  split
  · exact .refl s
  · exact .modLane s n (.setTimer n _ (by decide))
  · exact .closeAndStop ..

/-! ### Units (R127, R128) -/

/-- A lane with one more unit counted and nothing closed yet (R127, R128). -/
def LaneState.withUnit (l : LaneState) : LaneState :=
  l.modProgress fun q => { q with elapsed := q.elapsed + 1, sliceUnits := q.sliceUnits + 1 }

/-- A unit counted in an interval of which nothing was due: the slice that it fills closes, and at most the expiry is
left to do (R130, R131). -/
theorem withUnit_sliceClose {l k : LaneState} (hk : k = sliceCloseIfDue l.withUnit) (h : TimerSettled l.timer)
    (run : l.timer.state = .run) :
    k.timer.progress.elapsed.toNat ≤ k.timer.config.length.toNat ∧
      k.timer.progress.sliceUnits.toNat < k.timer.config.slice.toNat := by
  obtain ⟨hconfig, -, -, helapsed, hunits⟩ := sliceCloseIfDue_timer _ hk
  obtain ⟨hbelow, hslice⟩ := h.below run
  rw [hconfig, helapsed, hunits]
  constructor
  · show (l.timer.progress.elapsed + 1).toNat ≤ l.timer.config.length.toNat
    bv_omega
  · split
    · exact h.slice
    · rename_i hdue
      have hne : l.timer.progress.sliceUnits + 1 ≠ l.timer.config.slice := fun he => hdue ⟨run, he⟩
      show (l.timer.progress.sliceUnits + 1).toNat < l.timer.config.slice.toNat
      bv_omega

/-- The expiry settles a timer that has at most the expiry left to do (R130). -/
theorem intervalExpiryIfDue_settled (s : State) (n : Lane) (length : 1 ≤ (s.lane n).timer.config.length.toNat)
    (slice : 1 ≤ (s.lane n).timer.config.slice.toNat)
    (within : (s.lane n).timer.progress.elapsed.toNat ≤ (s.lane n).timer.config.length.toNat ∧
      (s.lane n).timer.progress.sliceUnits.toNat < (s.lane n).timer.config.slice.toNat) :
    TimerSettled ((intervalExpiryIfDue s n).lane n).timer := by
  have hconfig := ((SlotStep.intervalExpiryIfDue s n).lane n).timerConfig
  simp only [intervalExpiryIfDue, Bool.and_eq_true, beq_iff_eq] at hconfig ⊢
  split
  · rename_i hdue
    rw [if_pos hdue] at hconfig
    split
    · rename_i hmode
      simp only [hmode] at hconfig
      refine .outside hconfig length slice ?_
      rw [closeAndStop, State.modLane_lane, if_pos rfl, setTimer_state]
      decide
    · rename_i hmode
      simp only [hmode] at hconfig
      refine .fresh hconfig length slice ?_ ?_ <;> rw [closeAndRestart, State.modLane_lane, if_pos rfl]
      · exact startInterval_elapsed _
      · exact startInterval_sliceUnits _
  · rename_i hdue
    refine ⟨length, slice, fun hr => ⟨?_, within.2⟩⟩
    have hne : (s.lane n).timer.progress.elapsed ≠ (s.lane n).timer.config.length := fun he => hdue ⟨hr, he⟩
    have hle := within.1
    bv_omega

/-- A counted unit settles the slice and the expiry that it makes due (R130, R131). -/
theorem TimerStep.countUnit (s : State) (n : Lane) (run : (s.lane n).timer.state = .run) :
    TimerStep s (countUnit s n) := by
  have hunit : Machine.countUnit s n =
      Machine.intervalExpiryIfDue (s.modLane n fun l => Machine.sliceCloseIfDue l.withUnit) n := rfl
  rw [hunit]
  generalize ht : s.modLane n (fun l => Machine.sliceCloseIfDue l.withUnit) = t
  have hm := (TimerStep.intervalExpiryIfDue t n).lane
  refine ⟨fun m => ?_⟩
  by_cases hmn : m = n
  · subst m
    have hk : t.lane n = Machine.sliceCloseIfDue (s.lane n).withUnit := by rw [← ht, State.modLane_lane, if_pos rfl]
    obtain ⟨hconfig, hstate, hoffer, -, -⟩ := sliceCloseIfDue_timer _ hk
    have hconfig' : (t.lane n).timer.config = (s.lane n).timer.config := hconfig
    refine ⟨fun h => ?_, fun h => (hm n).offer ⟨?_, ?_⟩⟩
    · exact intervalExpiryIfDue_settled t n (hconfig' ▸ h.length) (hconfig' ▸ h.slice) (withUnit_sliceClose hk h run)
    · rw [hconfig, hstate, hoffer]
      exact h.waits
    · rw [hoffer]
      exact h.owes
  · rw [← modLane_lane_ne hmn s fun l => Machine.sliceCloseIfDue l.withUnit, ht]
    exact hm m

theorem run_of_counting {l : LaneState} (h : counting l = true) : l.timer.state = .run := by
  simp only [counting, Bool.and_eq_true, beq_iff_eq] at h
  exact h.1

theorem TimerStep.tickTimer (s : State) (n : Lane) : TimerStep s (tickTimer s n) := by
  simp only [Machine.tickTimer, Bool.and_eq_true]
  split
  · rename_i h
    exact .countUnit s n (run_of_counting h.2)
  · exact .refl s

/-- A tick at every interval timer. -/
theorem timerStep_ticks (s : State) : TimerStep s (tickTimer (tickTimer (tickTimer (tickTimer s 0) 1) 2) 3) :=
  (((TimerStep.tickTimer s 0).trans (.tickTimer _ 1)).trans (.tickTimer _ 2)).trans (.tickTimer _ 3)

/-! ### Words at a checker -/

theorem setRun_timer (s : State) (n m : Lane) (r : RunTotals × Bool) :
    ((setRun s n r).lane m).timer = (s.lane m).timer := by
  rw [setRun_lane]
  split
  · subst m; rfl
  · rfl

theorem setInterval_timer (s : State) (n m : Lane) (a : IntervalAcc × Bool) :
    ((setInterval s n a).lane m).timer = (s.lane m).timer := by
  rw [setInterval_lane]
  split
  · subst m; rfl
  · rfl

/-- A change of a lane that does not concern its timer. -/
theorem TimerStep.beside (s : State) (n : Lane) {f : LaneState → LaneState}
    (h : (f (s.lane n)).timer = (s.lane n).timer) : TimerStep s (s.modLane n f) :=
  .modLane s n (.of_eq h)

theorem TimerStep.modChecker (s : State) (n : Lane) (f : Checker → Checker) :
    TimerStep s (s.modLane n fun l => l.modChecker f) :=
  .beside s n (f := fun l => l.modChecker f) (Eq.refl (s.lane n).timer)

theorem TimerStep.gainLock (s : State) (n : Lane) (c : Checker) : TimerStep s (gainLock s n c) := by
  simp only [Machine.gainLock]
  refine TimerStep.trans (TimerStep.trans (.modChecker ..) (.of_eq fun m => setRun_timer ..)) (.raise (.beside _ n ?_) _)
  split <;> rfl

theorem TimerStep.loseLock (s : State) (n : Lane) : TimerStep s (loseLock s n) := by
  simp only [Machine.loseLock]
  refine TimerStep.trans (TimerStep.trans (.modChecker ..) (.of_eq fun m => setRun_timer ..)) (.raise (.modLane _ n ?_) _)
  split
  · exact .marked ..
  · exact .refl ..

theorem TimerStep.verifyWord (s : State) (n : Lane) (x : Expected) (w : Word) : TimerStep s (verifyWord s n x w) := by
  unfold Machine.verifyWord
  split
  · exact .modChecker ..
  · split
    · split
      · exact .modChecker ..
      · exact .gainLock ..
    · exact .modChecker ..

theorem TimerStep.accumulate (s : State) (n : Lane) (c e : Nat) :
    TimerStep s (accumulatedUnit (accumulateInterval (accumulateRun s n c e) n c e) n) := by
  have hinterval : ∀ u, TimerStep u (accumulateInterval u n c e) := fun u => by
    unfold accumulateInterval
    split
    · exact .of_eq fun m => setInterval_timer ..
    · exact .refl u
  have hunit : ∀ u, TimerStep u (accumulatedUnit u n) := fun u => by
    simp only [accumulatedUnit, Bool.and_eq_true]
    split
    · rename_i h
      exact .countUnit u n (run_of_counting h.1)
    · exact .refl u
  exact (TimerStep.trans (.of_eq fun m => setRun_timer ..) (hinterval _)).trans (hunit _)

theorem TimerStep.lockedWord (s : State) (n : Lane) (x : Expected) (w : Word) : TimerStep s (lockedWord s n x w) := by
  unfold Machine.lockedWord
  split
  · exact .modChecker ..
  · rename_i ref mask _
    have ha := TimerStep.accumulate s n (ones mask) (erroredBits w ref mask)
    simp only [moveSlip]
    split
    · exact ha.trans (.loseLock ..)
    · exact ha.trans (.modChecker ..)

theorem TimerStep.searchWord {s t : State} {n : Lane} {w : Word} (h : searchWord s n w = .ok t) : TimerStep s t := by
  simp only [Machine.searchWord] at h
  split at h
  · split at h <;> cases h
    split
    · exact .modChecker ..
    · exact .refl s
  · split at h
    · cases h
    · split at h <;> cases h
      · exact .refl s
      · exact .modChecker ..

theorem TimerStep.deliverTo {src : Source} {w : Word} {s t : State} {n : Lane} (h : deliverTo src w s n = .ok t) :
    TimerStep s t := by
  simp only [Machine.deliverTo, Machine.receiveAt] at h
  split at h
  · split at h
    · cases h
      exact .refl s
    · exact .searchWord h
    · split at h <;> cases h
      exact .verifyWord ..
    · split at h <;> cases h
      exact .lockedWord ..
  · cases h
    exact .refl s

/-- What a delivered word does to the timers. -/
theorem TimerStep.deliver {src : Source} {w : Word} {s t : State} (h : deliver src w s = .ok t) : TimerStep s t := by
  obtain ⟨s0, s1, s2, h0, h1, h2, h3⟩ := deliver_ok h
  exact (((deliverTo h0).trans (deliverTo h1)).trans (deliverTo h2)).trans (deliverTo h3)

/-! ### Moves of a run -/

/-- A generator of whose run neither the pause's end nor the word limit is left due (R48, R51). -/
structure RunSettled (pl : Plan) (g : Generator) : Prop where
  pause : g.state = .pausing → g.pos.pause ≠ 0
  limit : inRun g = true → pl.wordLimit ≠ 0 → g.wordsEmitted.toNat < pl.wordLimit.toNat

/-- A trigger pends only in a run (R44). -/
def PendingInRun (g : Generator) : Prop := g.pendingTrigger = true → inRun g = true

theorem inRun_iff {g : Generator} : inRun g = true ↔ g.state = .running ∨ g.state = .pausing := by
  simp only [inRun, Bool.or_eq_true, beq_iff_eq]

/-- A change of a lane that leaves its run nothing due that was not, and no trigger pending outside it. -/
structure RunMove (l k : LaneState) : Prop where
  settled : RunSettled l.plan l.gen → RunSettled k.plan k.gen
  pending : PendingInRun l.gen → PendingInRun k.gen

theorem RunMove.refl (l : LaneState) : RunMove l l := ⟨id, id⟩

theorem RunMove.trans {a b c : LaneState} (h : RunMove a b) (g : RunMove b c) : RunMove a c :=
  ⟨g.settled ∘ h.settled, g.pending ∘ h.pending⟩

/-- The generator and the plan's word limit are as they were. -/
theorem RunMove.of_eq {l k : LaneState} (gen : k.gen = l.gen) (limit : k.plan.wordLimit = l.plan.wordLimit) :
    RunMove l k :=
  ⟨fun h => ⟨gen ▸ h.pause, by rw [gen, limit]; exact h.limit⟩, fun h => gen ▸ h⟩

/-- Outside a run nothing is due. -/
theorem RunSettled.outside {pl : Plan} {g : Generator} (h : inRun g = false) : RunSettled pl g where
  pause hp := by simp [inRun, hp] at h
  limit hr := by simp [h] at hr

/-- At the start of a run nothing is due (R43). -/
theorem RunSettled.start {pl : Plan} {g : Generator} (running : g.state = .running) (words : g.wordsEmitted = 0) :
    RunSettled pl g where
  pause hp := by simp [running] at hp
  limit _ hl := by
    rw [words]
    exact Nat.pos_of_ne_zero fun h0 => hl (BitVec.eq_of_toNat_eq h0)

/-- A generator out of its run, with no trigger pending. -/
theorem RunMove.ended {l k : LaneState} (out : inRun k.gen = false) (pending : k.gen.pendingTrigger = false) :
    RunMove l k :=
  ⟨fun _ => .outside out, fun _ hp => by simp [pending] at hp⟩

/-- A generator at the start of a run (R43). -/
theorem RunMove.begun {l k : LaneState} (running : k.gen.state = .running) (words : k.gen.wordsEmitted = 0) :
    RunMove l k :=
  ⟨fun _ => .start running words, fun _ _ => inRun_iff.mpr (.inl running)⟩

/-- A word limit that has been reached is the words emitted (R51). -/
theorem limitReached_iff {pl : Plan} {g : Generator} : limitReached pl g = true ↔
    inRun g = true ∧ pl.wordLimit ≠ 0 ∧ g.wordsEmitted.toNat = pl.wordLimit.toNat := by
  simp only [limitReached, Bool.and_eq_true, bne_iff_ne, beq_iff_eq, and_assoc]

/-- The word limit settles itself (R51). -/
theorem wordLimitIfReached_lane (s : State) (n : Lane) :
    (wordLimitIfReached s n).lane n =
      if limitReached (s.lane n).plan (s.lane n).gen = true then
        (s.lane n).modGen fun g => { armAfterRun (s.lane n).plan g with pendingTrigger := false }
      else s.lane n := by
  unfold wordLimitIfReached
  split
  · rw [State.raise_lane, State.modLane_lane, if_pos rfl]
  · rfl

theorem RunMove.wordLimitIfReached (s : State) (n : Lane) : RunMove (s.lane n) ((wordLimitIfReached s n).lane n) := by
  rw [wordLimitIfReached_lane]
  split
  · exact .ended rfl rfl
  · exact .refl _

theorem RunMove.pauseEndIfDue (l : LaneState) : RunMove l (pauseEndIfDue l) := by
  simp only [Machine.pauseEndIfDue, Bool.and_eq_true, beq_iff_eq]
  split
  · rename_i h
    refine ⟨fun hs => ⟨fun hp => absurd hp (by simp [LaneState.modGen]), fun _ => ?_⟩, fun _ _ => rfl⟩
    exact hs.limit (inRun_iff.mpr (.inr h.1))
  · exact .refl l

theorem RunMove.takeTrigger (s : State) (n : Lane) (active : (s.lane n).gen.state ≠ .stopped) :
    RunMove (s.lane n) ((takeTrigger s n).2.lane n) := by
  unfold Machine.takeTrigger
  split
  · rw [beginRun, State.modLane_lane, if_pos rfl]
    exact .begun rfl rfl
  · rename_i harmed
    split
    · exact .refl _
    · rw [State.modLane_lane, if_pos rfl]
      refine ⟨fun h => ⟨h.pause, h.limit⟩, fun _ _ => inRun_iff.mpr ?_⟩
      show (s.lane n).gen.state = .running ∨ (s.lane n).gen.state = .pausing
      cases hs : (s.lane n).gen.state <;> simp_all

/-- The end of a pass: the next pass with its pause, a seamless run, or ARMED (R47 to R49). -/
theorem RunMove.endPass (s : State) (n : Lane) (running : (s.lane n).gen.state = .running) :
    RunMove (s.lane n) ((endPass s n).lane n) := by
  have hrun : inRun (s.lane n).gen = true := inRun_iff.mpr (.inl running)
  simp only [Machine.endPass, endRunByPasses, beginRun, State.modLane_lane, if_true]
  split
  · rw [State.modLane_lane, if_pos rfl]
    simp only [State.modLane_lane, if_true, nextPass, latchPass, LaneState.modGen]
    refine ⟨fun h => ⟨fun hp hzero => ?_, fun _ => h.limit hrun⟩, fun _ _ => inRun_iff.mpr ?_⟩
    · have hz : (s.lane n).plan.pause = 0 := hzero
      simp [hz] at hp
    · dsimp only
      split
      · exact .inl rfl
      · exact .inr rfl
  · split
    · simp only [State.modLane_lane, if_true]
      exact .begun rfl rfl
    · rename_i hpend
      simp only [State.raise_lane, State.modLane_lane, if_true]
      exact .ended rfl (Bool.eq_false_iff.mpr hpend)

theorem short_of_not_limitReached {pl : Plan} {g : Generator} (run : inRun g = true)
    (h : ¬ limitReached pl g = true) : pl.wordLimit ≠ 0 → g.wordsEmitted.toNat ≠ pl.wordLimit.toNat :=
  fun limit he => h (limitReached_iff.mpr ⟨run, limit, he⟩)

/-- A counted slot leaves at most the word limit due (R51). -/
theorem RunSettled.counted {pl : Plan} {g k : Generator} (h : RunSettled pl g) (run : inRun g = true)
    (words : k.wordsEmitted = g.wordsEmitted + 1)
    (short : pl.wordLimit ≠ 0 → k.wordsEmitted.toNat ≠ pl.wordLimit.toNat)
    (pause : k.state = .pausing → k.pos.pause ≠ 0) : RunSettled pl k := by
  refine ⟨pause, fun _ limit => ?_⟩
  have hne := short limit
  have hlt := h.limit run limit
  rw [words] at hne ⊢
  bv_omega

/-- A slot of a pause: one pause word less, then the word limit or the pause's end (R48, R51). -/
theorem RunMove.pausingSlot (s : State) (n : Lane) (pausing : (s.lane n).gen.state = .pausing) :
    RunMove (s.lane n) ((pausingSlot s n).lane n) := by
  rw [pausingSlot_eq, State.modLane_lane, if_pos rfl, wordLimitIfReached_lane, State.modLane_lane, if_pos rfl]
  have hused : (s.lane n).pauseWordUsed.gen.state = .pausing := pausing
  split
  · exact (RunMove.ended rfl rfl).trans (.pauseEndIfDue _)
  · rename_i hshort
    have hlimit := short_of_not_limitReached (inRun_iff.mpr (.inr hused)) hshort
    rw [pauseEndIfDue_pausing hused]
    refine ⟨fun h => h.counted (inRun_iff.mpr (.inr pausing)) rfl hlimit fun hp hzero => ?_,
      fun _ _ => inRun_iff.mpr ?_⟩
    · have hz : (s.lane n).pauseWordUsed.gen.pos.pause = 0 := hzero
      simp [hz] at hp
    · dsimp only
      split
      · exact .inl rfl
      · exact .inr rfl

/-- The walk after a counted word of a run: the word limit, the next position, or the end of the pass (R46, R47, R51). -/
theorem RunMove.afterPatternWord {l : LaneState} (s : State) (n : Lane) (step : Option Advance)
    (plan : (s.lane n).plan = l.plan) (running : l.gen.state = .running) (state : (s.lane n).gen.state = l.gen.state)
    (words : (s.lane n).gen.wordsEmitted = l.gen.wordsEmitted + 1) :
    RunMove l ((afterPatternWord s n step).lane n) := by
  have hrun : (s.lane n).gen.state = .running := state.trans running
  unfold Machine.afterPatternWord
  split
  · rename_i hreached
    rw [wordLimitIfReached_lane, if_pos hreached]
    exact .ended rfl rfl
  · rename_i hshort
    have hcount : RunMove l (s.lane n) := by
      rw [plan] at hshort
      refine ⟨fun h => plan ▸ h.counted (inRun_iff.mpr (.inl running)) words
        (short_of_not_limitReached (inRun_iff.mpr (.inl hrun)) hshort) fun hp => ?_, fun _ _ => inRun_iff.mpr (.inl hrun)⟩
      simp [hrun] at hp
    refine hcount.trans ?_
    split
    · exact .refl _
    · rw [State.modLane_lane, if_pos rfl]
      refine ⟨fun h => ⟨fun hp => ?_, h.limit⟩, fun h => h⟩
      simp [LaneState.modGen, hrun] at hp
    · exact .endPass s n hrun

/-! ### Moves of the whole part -/

/-- Every lane moves by a `TimerMove` and a `RunMove`. -/
structure MoveStep (s t : State) : Prop where
  timers : TimerStep s t
  runs : ∀ m, RunMove (s.lane m) (t.lane m)

theorem MoveStep.trans {a b c : State} (h : MoveStep a b) (g : MoveStep b c) : MoveStep a c :=
  ⟨h.timers.trans g.timers, fun m => (h.runs m).trans (g.runs m)⟩

/-- The lanes are as they were. -/
theorem MoveStep.still {s t : State} (h : ∀ m, t.lane m = s.lane m) : MoveStep s t :=
  ⟨.of_eq fun m => by rw [h], fun m => by rw [h]; exact .refl _⟩

/-- Interval timing moves no run. -/
theorem MoveStep.timing {s t : State} (slot : SlotStep s t) (timing : IntervalStep s t) (timers : TimerStep s t) :
    MoveStep s t :=
  ⟨timers, fun m => .of_eq (timing.lane m).gen (congrArg Plan.wordLimit (slot.lane m).plan)⟩

theorem MoveStep.modLane (s : State) (n : Lane) {f : LaneState → LaneState}
    (timer : TimerMove n (s.lane n).timer (f (s.lane n)).timer) (run : RunMove (s.lane n) (f (s.lane n))) :
    MoveStep s (s.modLane n f) := by
  refine ⟨.modLane s n timer, fun m => ?_⟩
  rw [State.modLane_lane]
  split
  · subst m; exact run
  · exact .refl _

/-- A change of a lane's generator. -/
theorem MoveStep.gen (s : State) (n : Lane) {f : LaneState → LaneState}
    (timer : (f (s.lane n)).timer = (s.lane n).timer) (run : RunMove (s.lane n) (f (s.lane n))) :
    MoveStep s (s.modLane n f) :=
  .modLane s n (.of_eq timer) run

/-- A change of a lane beside its timer, its generator and its plan's word limit. -/
theorem MoveStep.beside (s : State) (n : Lane) {f : LaneState → LaneState}
    (timer : (f (s.lane n)).timer = (s.lane n).timer) (gen : (f (s.lane n)).gen = (s.lane n).gen)
    (limit : (f (s.lane n)).plan.wordLimit = (s.lane n).plan.wordLimit) : MoveStep s (s.modLane n f) :=
  .gen s n timer (.of_eq gen limit)

/-- A change of a lane's timer. -/
theorem MoveStep.timer (s : State) (n : Lane) {f : LaneState → LaneState}
    (timer : TimerMove n (s.lane n).timer (f (s.lane n)).timer) (gen : (f (s.lane n)).gen = (s.lane n).gen)
    (plan : (f (s.lane n)).plan = (s.lane n).plan) : MoveStep s (s.modLane n f) :=
  .modLane s n timer (.of_eq gen (congrArg Plan.wordLimit plan))

/-- The generator's side of a slot moves lane n's run and no timer. -/
theorem MoveStep.ofRun {s t : State} (n : Lane) (others : ∀ m, m ≠ n → t.lane m = s.lane m)
    (timer : (t.lane n).timer = (s.lane n).timer) (run : RunMove (s.lane n) (t.lane n)) : MoveStep s t := by
  refine ⟨.of_eq fun m => ?_, fun m => ?_⟩ <;> by_cases hm : m = n
  · subst m; exact timer
  · rw [others m hm]
  · subst m; exact run
  · rw [others m hm]; exact .refl _

theorem takeTrigger_timer (s : State) (n : Lane) : ((takeTrigger s n).2.lane n).timer = (s.lane n).timer := by
  unfold takeTrigger
  split
  · rw [beginRun, State.modLane_lane, if_pos rfl]
  · split
    · rfl
    · rw [State.modLane_lane, if_pos rfl]
      rfl

theorem MoveStep.takeTrigger (s : State) (n : Lane) (active : (s.lane n).gen.state ≠ .stopped) :
    MoveStep s (takeTrigger s n).2 :=
  .ofRun n (fun _ hm => takeTrigger_lane_ne hm s) (takeTrigger_timer s n) (.takeTrigger s n active)

theorem WalkKept.timer {l k : LaneState} (h : WalkKept l k) : k.timer = l.timer := by rw [h]

theorem pauseEndIfDue_timer (l : LaneState) : (pauseEndIfDue l).timer = l.timer := by
  unfold pauseEndIfDue
  split <;> rfl

theorem MoveStep.wordLimitIfReached (s : State) (n : Lane) : MoveStep s (wordLimitIfReached s n) :=
  .ofRun n (fun _ hm => wordLimitIfReached_lane_ne hm s) (WalkKept.wordLimitIfReached s n).timer
    (.wordLimitIfReached s n)

theorem MoveStep.pausingSlot (s : State) (n : Lane) (pausing : (s.lane n).gen.state = .pausing) :
    MoveStep s (pausingSlot s n) := by
  refine .ofRun n (fun _ hm => pausingSlot_lane_ne hm s) ?_ (.pausingSlot s n pausing)
  rw [pausingSlot_eq, State.modLane_lane, if_pos rfl, pauseEndIfDue_timer, (WalkKept.wordLimitIfReached ..).timer,
    State.modLane_lane, if_pos rfl]
  rfl

/-- A slot of a run as far as the walk goes on from its word. -/
theorem MoveStep.running (s : State) (n : Lane) (running : (s.lane n).gen.state = .running) (w flips : Word)
    (used : InjectUnit) (prbs : BitVec 32) (step : Option Advance) :
    MoveStep s (afterPatternWord (emitted n w flips used prbs s) n step) := by
  have hgen := emitted_gen n w flips used prbs s
  have hplan := (LaneKept.emitted n n w flips used prbs s).plan
  refine ⟨.of_eq fun m => ?_, fun m => ?_⟩ <;> by_cases hm : m = n
  · subst m
    rw [(WalkKept.afterPatternWord ..).timer, emitted_timer]
  · rw [afterPatternWord_lane_ne hm, emitted_timer]
  · subst m
    exact .afterPatternWord _ n step hplan running (by rw [hgen]) (by rw [hgen])
  · rw [afterPatternWord_lane_ne hm, emitted_lane, if_neg hm]
    have hk := IntervalKept.creditLane n (ones flips) (s.lane m)
    exact .of_eq hk.gen (congrArg Plan.wordLimit (LaneKept.creditLane n (ones flips) (s.lane m)).plan)

theorem MoveStep.placeWord (s : State) (n : Lane) (w : Word) : MoveStep s (placeWord s n w) := .beside s n rfl rfl rfl

/-- What a delivered word does to timers and runs. -/
theorem MoveStep.deliver {src : Source} {w : Word} {s t : State} (h : deliver src w s = .ok t) : MoveStep s t :=
  ⟨.deliver h, fun m => .of_eq ((GenStep.deliver h).lane m).gen
    (congrArg Plan.wordLimit ((SlotStep.deliver h).lane m).plan)⟩

/-- What a transmit slot does to timers and runs. -/
theorem MoveStep.transmit {s t : State} {n : Lane} (h : transmit s n = .ok t) : MoveStep s t := by
  obtain ⟨w, u, hu, rfl | ⟨pausing, rfl⟩ | ⟨flips, used, prbs, step, running, rfl⟩⟩ := transmit_cases h
  · exact (MoveStep.placeWord s n w).trans (.deliver hu)
  · exact ((MoveStep.pausingSlot s n pausing).trans (.placeWord _ n w)).trans (.deliver hu)
  · exact (MoveStep.running s n running w flips used prbs step).trans (.deliver hu)

theorem MoveStep.startOwed (s : State) (p : Port) : MoveStep s (s.startOwed p) :=
  .timing (.startOwed s p) (.startOwed s p) (.startOwed s p)

/-! ### Commands -/

/-- The lengths that GATE_CONFIG stores are at least 1, and its timer, in STOP, has no interval (R118). -/
theorem TimerMove.configured {n : Lane} {t : Timer} {bs : List Byte} {cfg : TimerConfig}
    (h : timerConfigOfBytes n bs = some cfg) (stop : t.state = .stop) : TimerMove n t { t with config := cfg } := by
  obtain ⟨-, -, -, hlength, hslice, -, -⟩ := timerConfigOfBytes_eq_some h
  refine ⟨fun _ => ⟨?_, ?_, fun hr => ?_⟩, fun ho => ⟨fun hs => ?_, ho.owes⟩⟩
  · rw [hlength, storeUnits_toNat (by norm_num) (fieldAt_lt bs 1 3)]
    exact le_max_left ..
  · rw [hslice, storeUnits_toNat (by norm_num) (fieldAt_lt bs 4 2)]
    exact le_max_left ..
  · exact absurd (stop.symm.trans hr) (by decide)
  · exact absurd (stop.symm.trans (ho.waits hs).1) (by decide)

/-- A plan replaced while its generator is STOPPED (R32). -/
theorem MoveStep.setPlan (s : State) (n : Lane) (pl : Plan) (idle : planInUse s n = false) :
    MoveStep s (s.setPlan n pl) := by
  obtain ⟨hgen, -⟩ := planInUse_eq_false.mp idle
  exact .gen s n rfl ⟨fun _ => .outside (by simp [inRun, hgen]), id⟩

/-- A segment replaced or made undefined leaves the word limits of the plans that reach it (R34). -/
theorem MoveStep.invalidate (s : State) (i : Fin 64) (slot : SegSlot) :
    MoveStep s (invalidate (s.setSeg i slot) i) := by
  have hl : ∀ m, ((Machine.invalidate (s.setSeg i slot) i).lane m).timer = (s.lane m).timer ∧
      ((Machine.invalidate (s.setSeg i slot) i).lane m).gen = (s.lane m).gen ∧
      ((Machine.invalidate (s.setSeg i slot) i).lane m).plan.wordLimit = (s.lane m).plan.wordLimit := fun m => by
    rw [invalidate_lane, State.setSeg_lane]
    split <;> exact ⟨rfl, rfl, rfl⟩
  exact ⟨.of_eq fun m => (hl m).1, fun m => .of_eq (hl m).2.1 (hl m).2.2⟩

theorem MoveStep.stopChecker (s : State) (n : Lane) : MoveStep s (stopChecker s n) := by
  unfold Machine.stopChecker
  refine MoveStep.trans (MoveStep.trans (b := if (s.lane n).timer.state = .run then closeAndStop s n .checkerStop else s)
    ?_ (.still fun m => State.unmark_lane ..)) (.beside _ n rfl rfl rfl)
  split
  · exact .timing (.closeAndStop ..) (.closeAndStop ..) (.closeAndStop ..)
  · exact .still fun _ => rfl

/-- What the command of a frame does to timers and runs. -/
theorem Taken.moves {f : Select} {c : Instr} {s u : State} (h : Taken f c s u) : MoveStep s u := by
  cases h with
  | reads | readsFree | reserve | release => exact .still fun _ => rfl
  | eventClear | eventEnable | holdoffSet | segCursor | wordCursor | resultRead =>
    exact .still fun _ => State.modPort_lane ..
  | portReset | wordWrite => exact .still fun m => (State.modPort_lane ..).trans rfl
  | segWrite args _ i sg =>
    exact (MoveStep.invalidate s i { s.seg i with record := some sg }).trans (.still fun _ => State.modPort_lane ..)
  | segClear b _ i => exact .invalidate s i { s.seg i with record := none }
  | planSet _ _ n pl _ _ idle => exact .setPlan s n _ idle
  | planCheck _ n _ idle => exact .setPlan s n _ idle
  | laneStart _ n =>
    exact (MoveStep.still fun m => State.mark_lane ..).trans (.gen _ n (f := armLane) rfl (.ended rfl rfl))
  | laneTrigger _ n _ active => exact .takeTrigger s n active
  | laneHalt _ n =>
    exact (MoveStep.still fun m => State.unmark_lane ..).trans (.gen _ n (f := fun l => l.modGen _) rfl (.ended rfl rfl))
  | injectSet _ _ n x =>
    exact (MoveStep.beside s n (f := setInjection x) rfl rfl rfl).trans (.still fun _ => State.useFree_lane ..)
  | injectTotalsClear _ n | sigClear _ n | routeSet _ _ n | totalsClear _ n => exact .beside s n rfl rfl rfl
  | checkConfig _ n => refine .beside s n ?_ ?_ ?_ <;> unfold configureChecker <;> split <;> rfl
  | checkStart _ n =>
    simp only [startChecker]
    exact (MoveStep.still fun m => State.mark_lane ..).trans (.beside _ n rfl rfl rfl)
  | checkStop _ n => exact .stopChecker s n
  | gateConfig _ _ n cfg _ config stop =>
    exact (MoveStep.timer s n (f := fun l => { l with timer := { l.timer with config := cfg } })
      (.configured config stop) rfl rfl).trans (.still fun _ => State.useFree_lane ..)
  | gateArm _ n => exact .timing (.modLane s n (.armTimer _)) (.modLane s n (.armTimer _)) (.modLane s n (.armTimer ..))
  | gateStart _ n =>
    exact .timing (.modLane s n (.startInterval _)) (.modLane s n (.startInterval _)) (.modLane s n (.startInterval ..))
  | gateRetrigger _ n => exact .timing (.closeAndRestart ..) (.closeAndRestart ..) (.closeAndRestart ..)
  | gateStop _ n => exact .timing (.stopTimer s n) (.stopTimer s n) (.stopTimer s n)
  | resultClear _ n => exact (MoveStep.beside s n rfl rfl rfl).trans (.still fun _ => State.modPorts_lane ..)

theorem MoveStep.deviceReset (s : State) (phase : ResetPhase) : MoveStep s (deviceResetState s phase) := by
  refine ⟨⟨fun m => ?_⟩, fun m => ?_⟩ <;> rw [deviceResetState_lane]
  · have ht : (Reset.lane m (s.lane m).trigLine (s.lane m).gateLine).timer = Reset.timer := rfl
    rw [ht]
    exact ⟨fun _ => ⟨by decide, by decide, fun hr => absurd hr (by decide)⟩, fun _ => .of_none rfl⟩
  · exact .ended rfl rfl

theorem gateEdgeTaken_plan (level : Level) (l : LaneState) : (gateEdgeTaken level l).plan = l.plan := by
  simp only [gateEdgeTaken]
  split <;> rfl

/-- What reaches the part by its lines, buses and timebase does to timers and runs. -/
theorem LineNext.moves {c : Instr} {s u : State} (h : LineNext c s u) : MoveStep s u := by
  cases h with
  | deviceReset => exact .deviceReset ..
  | resetNReturnsHigh | noEdge => exact .still fun _ => rfl
  | trigLine n level => exact .beside s n rfl rfl rfl
  | trigger n level _ active =>
    exact (MoveStep.beside s n (f := fun l => { l with trigLine := level }) rfl rfl rfl).trans
      (.takeTrigger _ n (by simpa using active))
  | gateLine n level =>
    exact .timer s n (.gateEdgeTaken ..) (IntervalKept.gateEdgeTaken level _).gen (gateEdgeTaken_plan ..)
  | transmit n _ _ slot => exact .transmit slot
  | pauseEnd n => exact .gen s n (pauseEndIfDue_timer _) (.pauseEndIfDue _)
  | wordLimit n => exact .wordLimitIfReached s n
  | receive m w _ _ word => exact .deliver word
  | tick =>
    exact (MoveStep.timing (slotStep_ticks s) (intervalStep_ticks s) (timerStep_ticks s)).trans
      (.still fun _ => State.modPorts_lane ..)
  | sliceClose n =>
    exact .timing (.modLane s n (.sliceCloseIfDue _)) (.modLane s n (.sliceCloseIfDue _))
      (.modLane s n (.sliceCloseIfDue ..))
  | intervalExpiry n => exact .timing (.intervalExpiryIfDue ..) (.intervalExpiryIfDue ..) (.intervalExpiryIfDue ..)
  | chainStart n =>
    exact .timing (.modLane s n (.chainStartIfDue _)) (.modLane s n (.chainStartIfDue _))
      (.modLane s n (.chainStartIfDue ..))
  | holdoffExpiry p => exact .still fun _ => State.modPort_lane ..

/-! ### Hold-off timers (R172, R173) -/

/-- A running hold-off timer has ticks left. -/
def HoldoffSettled (h : Holdoff) : Prop := h.running = true → h.remaining ≠ 0

theorem startHoldoff_settled (v : BitVec 8) : HoldoffSettled (startHoldoff v) := by
  unfold startHoldoff HoldoffSettled
  split
  · simp [stoppedHoldoff]
  · exact fun _ => ‹_›

theorem holdoffExpiryIfDue_settled (h : Holdoff) : HoldoffSettled (holdoffExpiryIfDue h) := by
  unfold holdoffExpiryIfDue HoldoffSettled
  split
  · simp [stoppedHoldoff]
  · rename_i hdue
    exact fun hr h0 => hdue (by simp [hr, h0])

theorem tickHoldoff_settled (h : Holdoff) : HoldoffSettled (tickHoldoff h) := by
  unfold tickHoldoff
  split
  · exact holdoffExpiryIfDue_settled _
  · rename_i hr
    exact fun h => absurd h hr

/-- Every hold-off timer is settled in `t` if it was in `s`. -/
structure HoldoffStep (s t : State) : Prop where
  port : ∀ p, HoldoffSettled (s.port p).view.holdoff → HoldoffSettled (t.port p).view.holdoff

theorem HoldoffStep.of_eq {s t : State} (h : ∀ p, (t.port p).view.holdoff = (s.port p).view.holdoff) :
    HoldoffStep s t :=
  ⟨fun p hs => h p ▸ hs⟩

theorem HoldoffStep.trans {a b c : State} (h : HoldoffStep a b) (g : HoldoffStep b c) : HoldoffStep a c :=
  ⟨fun p => g.port p ∘ h.port p⟩

theorem HoldoffStep.slot {s t : State} (h : SlotStep s t) : HoldoffStep s t := .of_eq fun p => (h.port p).holdoff

theorem HoldoffStep.modPort (s : State) (p : Port) {f : PortState → PortState}
    (h : HoldoffSettled (s.port p).view.holdoff → HoldoffSettled (f (s.port p)).view.holdoff) :
    HoldoffStep s (s.modPort p f) := by
  refine ⟨fun q hq => ?_⟩
  rw [State.modPort_port]
  split
  · subst q; exact h hq
  · exact hq

/-- What the command of a frame does to the hold-off timers. -/
theorem Taken.holdoffs {f : Select} {c : Instr} {s u : State} (h : Taken f c s u) : HoldoffStep s u := by
  have lane : ∀ (n : Lane) (g : LaneState → LaneState), HoldoffStep s (s.modLane n g) := fun n g =>
    .of_eq fun p => by rw [State.modLane_port]
  cases h with
  | reads => exact .of_eq fun _ => rfl
  | readsFree => exact .of_eq fun p => by rw [State.useFree_port]
  | reserve | release => exact .of_eq fun p => by rw [State.setHolder_port]
  | eventClear => exact .modPort s _ fun _ => startHoldoff_settled _
  | eventEnable | holdoffSet | segCursor | wordCursor | resultRead => exact .modPort s _ id
  | portReset =>
    refine HoldoffStep.trans (.of_eq fun p => by rw [releaseAll_port]) (.modPort _ _ fun _ hr => ?_)
    cases hr
  | segWrite => exact (HoldoffStep.of_eq fun p => by rw [writeSegment_port]).trans (.modPort _ _ id)
  | segClear => exact .of_eq fun p => by rw [clearSegment_port]
  | wordWrite => exact (HoldoffStep.of_eq fun p => by rw [State.withStore_port]).trans (.modPort _ _ id)
  | laneStart | checkStart =>
    exact .of_eq fun p => by simp only [startLane, startChecker, State.modLane_port, State.mark_port]
  | laneHalt => exact .of_eq fun p => by simp only [haltLane, State.modLane_port, State.unmark_port]
  | laneTrigger _ n => exact .slot (.takeTrigger s n)
  | checkStop _ n =>
    obtain ⟨t, ht, -, -, he⟩ := stopChecker_eq s n
    exact .of_eq fun p => by rw [he, State.modLane_port, State.unmark_port, (ht.port p).holdoff]
  | gateRetrigger _ n => exact .slot (.closeAndRestart ..)
  | gateStop _ n => exact .slot (.stopTimer s n)
  | injectSet | gateConfig => exact .of_eq fun p => by rw [State.useFree_port, State.modLane_port]
  | resultClear =>
    exact .of_eq fun p => by simp only [clearRing, State.modPorts_port, State.modLane_port, PortState.modResult]
  | _ => exact lane ..

/-- What reaches the part by its lines, buses and timebase does to the hold-off timers. -/
theorem LineNext.holdoffs {c : Instr} {s u : State} (h : LineNext c s u) : HoldoffStep s u := by
  have lane : ∀ (n : Lane) (g : LaneState → LaneState), HoldoffStep s (s.modLane n g) := fun n g =>
    .of_eq fun p => by rw [State.modLane_port]
  cases h with
  | deviceReset => exact ⟨fun p _ hr => by cases p <;> cases hr⟩
  | resetNReturnsHigh => exact .of_eq fun p => by cases p <;> rfl
  | noEdge => exact .of_eq fun _ => rfl
  | trigger n level => exact (lane n _).trans (.slot (.takeTrigger _ n))
  | transmit n _ _ slot => exact .slot (.transmit slot)
  | wordLimit n => exact .slot (.wordLimitIfReached s n)
  | receive m w _ _ word => exact .slot (.deliver word)
  | tick => exact ⟨fun p _ => by rw [State.modPorts_port]; exact tickHoldoff_settled _⟩
  | intervalExpiry n => exact .slot (.intervalExpiryIfDue s n)
  | holdoffExpiry p => exact .modPort s p fun _ => holdoffExpiryIfDue_settled _
  | trigLine n | gateLine n | pauseEnd n | sliceClose n | chainStart n => exact lane ..

/-! ### Every step -/

/-- A step as a chain of moves: what is owed, the command or line event, and the reply. -/
theorem step_moves {s t : State} (h : step s = .next t) : MoveStep s t ∧ HoldoffStep s t := by
  unfold step at h
  split at h
  · cases h
    exact ⟨.still fun _ => rfl, .of_eq fun _ => rfl⟩
  · rename_i c rest _
    have hq : MoveStep s { s with pending := rest } ∧ HoldoffStep s { s with pending := rest } :=
      ⟨.still fun _ => rfl, .of_eq fun p => by rw [State.withPending_port]⟩
    generalize ({ s with pending := rest } : State) = q at h hq
    suffices hm : MoveStep q t ∧ HoldoffStep q t from ⟨hq.1.trans hm.1, hq.2.trans hm.2⟩
    rcases exec_cases h with ⟨f, bs, -, rfl | ⟨-, -, hr | ⟨len, u, r, hu, rfl⟩⟩⟩ | hl
    · exact ⟨.still fun _ => rfl, .of_eq fun _ => rfl⟩
    · have howed := HoldoffStep.slot (.startOwed q f.port)
      refine ⟨(MoveStep.startOwed q f.port).trans (.still fun m => by simp only [State.lane, hr.lanes]),
        howed.trans (.of_eq fun p => ?_)⟩
      by_cases hp : p = f.port
      · subst hp; exact hr.holdoff
      · rw [eq_otherPort hp, hr.other]
    · have hshift : ∀ p, (((q.startOwed f.port).shifted f.port len).port p).view = (q.port p).view := fun p => by
        rw [State.shifted_port]
        split
        · subst p; simp only [State.startOwed_port]
        · simp only [State.startOwed_port]
      have hreply : ∀ p, ((u.respond f.port r).port p).view = (u.port p).view := fun p => by
        rw [State.respond_port]
        split
        · subst p; rfl
        · rfl
      refine ⟨?_, ?_⟩
      · exact (((MoveStep.startOwed q f.port).trans (.still fun m => State.shifted_lane ..)).trans hu.moves).trans
          (.still fun m => State.respond_lane ..)
      · exact ((HoldoffStep.of_eq fun p => by rw [hshift]).trans hu.holdoffs).trans (.of_eq fun p => by rw [hreply])
    · exact ⟨hl.moves, hl.holdoffs⟩

theorem settled_iff {s : State} : Settled s ↔
    (∀ n, TimerSettled (s.lane n).timer ∧ RunSettled (s.lane n).plan (s.lane n).gen) ∧
      ∀ p, HoldoffSettled (s.port p).view.holdoff := by
  refine and_congr_left fun _ => forall_congr' fun n => ⟨?_, ?_⟩
  · rintro ⟨hlength, hslice, hbelow, hpause, hlimit⟩
    exact ⟨⟨hlength, hslice, hbelow⟩, ⟨hpause, hlimit⟩⟩
  · rintro ⟨⟨hlength, hslice, hbelow⟩, ⟨hpause, hlimit⟩⟩
    exact ⟨hlength, hslice, hbelow, hpause, hlimit⟩

theorem offersSound_iff {s : State} : OffersSound s ↔ ∀ n, OfferSound n (s.lane n).timer :=
  forall_congr' fun _ => ⟨fun h => ⟨h.1, h.2⟩, fun h => ⟨h.waits, h.owes⟩⟩

theorem pendingOnlyInRun_iff {s : State} : PendingOnlyInRun s ↔ ∀ n, PendingInRun (s.lane n).gen :=
  forall_congr' fun _ => imp_congr_right fun _ => inRun_iff.symm

/-- Settles O55: every step is a chain of moves, none of which leaves anything due, unsoundly offered or pending outside
a run. -/
theorem nothingIsLeftDueOrPending : Obligations.NothingIsLeftDueOrPending := by
  refine ⟨fun s t h => ?_, fun s t hs h => ?_⟩ <;> obtain ⟨hmove, hholdoff⟩ := step_moves h
  · rw [settled_iff, settled_iff, offersSound_iff, offersSound_iff]
    refine ⟨fun ⟨hlanes, hports⟩ => ⟨fun n => ?_, fun p => hholdoff.port p (hports p)⟩,
      fun hs n => (hmove.timers.lane n).offer (hs n)⟩
    obtain ⟨htimer, hrun⟩ := hlanes n
    exact ⟨(hmove.timers.lane n).settled htimer, (hmove.runs n).settled hrun⟩
  · rw [pendingOnlyInRun_iff] at hs ⊢
    exact fun n => (hmove.runs n).pending (hs n)

end Sys2Proof.Machine
end

section
/-!
PROOF. Starts, triggers and halts of a generator (R39 to R43, R55), and the events that a slot or a tick takes by itself,
sent as commands (R48, R51, R173).
-/

namespace Sys2Proof.Machine

theorem modLane_congr {s : State} {n : Lane} {f g : LaneState → LaneState} (h : f (s.lane n) = g (s.lane n)) :
    s.modLane n f = s.modLane n g := by
  rw [State.modLane, State.modLane, h]

/-- A lane changed to what it is. -/
theorem modLane_eq_self {s : State} {n : Lane} {f : LaneState → LaneState} (h : f (s.lane n) = s.lane n) :
    s.modLane n f = s := by
  refine State.ext_parts (fun _ => rfl) rfl (fun m => ?_) (fun p => State.modLane_port ..) (fun _ => rfl) rfl rfl rfl
  rw [State.modLane_lane]
  split
  · subst m; exact h
  · rfl

/-! ### LANE_START and LANE_HALT (R39, R55) -/

/-- A table of segments put in place beside a lane's change and a reply. -/
theorem withSegs_modLane_respond (s : State) (segs : Vector SegSlot 64) (p : Port) (len : Nat) (r : Response) (n : Lane)
    (g : LaneState → LaneState) :
    (State.modLane { s.shifted p len with segs := segs } n g).respond p r =
      { (replied p len r s).modLane n g with segs := segs } := by
  cases p <;> rfl

/-- Settles O22: the reset of the run history is `armLane`, and the marks are those of the plan's reach set. -/
theorem laneStartArmsTheGenerator : Obligations.LaneStartArmsTheGenerator := by
  intro p n s h stopped valid
  rw [exec, execLaneStart, laneCommand_open h, State.shifted_lane, if_pos ⟨stopped, valid⟩, settle_done, startLane,
    State.mark, withSegs_modLane_respond]
  simp only [State.shifted_lane, State.shifted_seg]
  rfl

/-- A walker's marks taken off the whole table (R12). -/
theorem State.unmark_eq (s : State) (w : Walker) :
    s.unmark w = { s with segs := s.segs.map fun g => { g with useSet := removeUser g.useSet w } } := by
  have hsegs : (s.unmark w).segs = s.segs.map fun g => { g with useSet := removeUser g.useSet w } :=
    Vector.ext fun i hi => by
      simp only [State.unmark, State.seg, Vector.getElem_ofFn, Vector.getElem_map, Fin.getElem_fin]
  rw [← hsegs, State.unmark]

/-- Settles O24: in STOPPED nothing is left to do, and elsewhere `haltLane` is. -/
theorem laneHaltStopsTheGenerator : Obligations.LaneHaltStopsTheGenerator := by
  intro p n s h
  have he : exec (.laneHalt p.frame [laneCode n]) s = settleAnswer p 0x2A (s.shifted p 2)
      (.done .ok [laneCode n, genStateCode (s.lane n).gen.state]
        (if (s.lane n).gen.state = .stopped then s.shifted p 2 else haltLane (s.shifted p 2) n)) := by
    rw [exec, execLaneHalt, laneCommand_open h, State.shifted_lane]
  refine ⟨fun stopped => ?_, fun active => ?_⟩
  · rw [he, if_pos stopped, settle_done, shifted_respond, stopped]
    rfl
  · rw [he, if_neg active, settle_done, haltLane, State.unmark_eq, withSegs_modLane_respond, State.shifted_segs]
    rfl

/-! ### Triggers (R41 to R43) -/

section
variable {s : State} {n : Lane}

theorem freeRunSeed_congr {t : State} (h : t.record = s.record) (pl : Plan) : freeRunSeed t pl = freeRunSeed s pl := by
  rw [freeRunSeed, freeRunSeed, h]

theorem beginRun_eq : beginRun s n = s.modLane n (begunRun (freeRunSeed s (s.lane n).plan)) :=
  modLane_congr rfl

/-- A trigger in ARMED begins a run. -/
theorem takeTrigger_armed (armed : (s.lane n).gen.state = .armed) :
    takeTrigger s n = (.runStarted, s.modLane n (begunRun (freeRunSeed s (s.lane n).plan))) := by
  rw [takeTrigger, if_pos armed, beginRun_eq]

theorem not_armed_of_inRun (run : (s.lane n).gen.state = .running ∨ (s.lane n).gen.state = .pausing) :
    (s.lane n).gen.state ≠ .armed := by
  rcases run with h | h <;> simp [h]

theorem not_stopped_of_inRun (run : (s.lane n).gen.state = .running ∨ (s.lane n).gen.state = .pausing) :
    (s.lane n).gen.state ≠ .stopped := by
  rcases run with h | h <;> simp [h]

/-- A trigger in a run pends, and one that pends already is held. -/
theorem takeTrigger_inRun (run : (s.lane n).gen.state = .running ∨ (s.lane n).gen.state = .pausing) :
    takeTrigger s n = (if (s.lane n).gen.pendingTrigger then .pendingHeld else .pendingSet,
      s.modLane n fun l => { l with gen := { l.gen with pendingTrigger := true } }) := by
  rw [takeTrigger, if_neg (not_armed_of_inRun run)]
  split
  · rename_i held
    rw [modLane_eq_self]
    rw [← held]
  · rfl

/-- What LANE_TRIGGER answers on an open lane whose generator is not STOPPED (R41). -/
theorem exec_laneTrigger {p : Port} (h : LaneOpen s p n) (active : (s.lane n).gen.state ≠ .stopped) :
    exec (.laneTrigger p.frame [laneCode n]) s = .next ((takeTrigger (s.shifted p 2) n).2.respond p
      { status := .ok, code := 0x29, fields := [laneCode n, triggerOutcomeCode (takeTrigger (s.shifted p 2) n).1] }) := by
  rw [exec, execLaneTrigger, laneCommand_open h, State.shifted_lane, if_neg active, settle_done]

/-- What a change of level does on a lane whose generator is not STOPPED, when it matches (R42). -/
theorem exec_trigEdge_matching {level : Level} (change : (s.lane n).trigLine ≠ level)
    (active : (s.lane n).gen.state ≠ .stopped) (matching : (s.lane n).plan.trigger.matchesEdge level = true) :
    exec (.trigEdge n level) s = .next (takeTrigger (s.modLane n fun l => { l with trigLine := level }) n).2 := by
  have hlane : (s.modLane n fun l => { l with trigLine := level }).lane n = { s.lane n with trigLine := level } := by
    rw [State.modLane_lane, if_pos rfl]
  rw [exec, execTrigEdge, if_neg change]
  simp only [hlane]
  rw [if_pos ⟨active, matching⟩]

end

theorem matchesEdge_iff (t : PlanTrigger) (level : Level) : t.matchesEdge level = true ↔
    (t = .trigRise ∧ level = .high) ∨ (t = .trigFall ∧ level = .low) ∨ t = .trigBoth := by
  cases t <;> simp [PlanTrigger.matchesEdge]

/-- Settles O23: command and edge alike come down to `takeTrigger`. -/
theorem triggersBeginRunsOrPend : Obligations.TriggersBeginRunsOrPend := by
  refine ⟨fun p n s h => ⟨fun armed => ?_, fun run => ⟨fun free => ?_, fun held => ?_⟩⟩, fun n level s =>
    ⟨fun same => ?_, fun change => ⟨fun ignored => ?_, fun matching => ⟨fun armed => ?_, fun run => ?_⟩⟩⟩,
    matchesEdge_iff⟩
  · rw [exec_laneTrigger h (by simp [armed]), takeTrigger_armed (by simpa using armed), shifted_modLane_respond,
      State.shifted_lane, freeRunSeed_congr (shifted_record s p 2)]
    rfl
  · rw [exec_laneTrigger h (not_stopped_of_inRun run), takeTrigger_inRun (by simpa using run), shifted_modLane_respond,
      State.shifted_lane, free]
    rfl
  · rw [exec_laneTrigger h (not_stopped_of_inRun run), takeTrigger_inRun (by simpa using run), shifted_modLane_respond,
      State.shifted_lane, held, modLane_eq_self]
    · rfl
    · rw [replied_lane, ← held]
  · rw [exec, execTrigEdge, if_pos same]
  · rw [exec, execTrigEdge, if_neg change]
    dsimp only
    rw [if_neg]
    rw [State.modLane_lane, if_pos rfl]
    rintro ⟨active, matching⟩
    rcases ignored with stopped | hno
    · exact active stopped
    · exact absurd (matching.symm.trans hno) (by decide)
  · rw [exec_trigEdge_matching change (by simp [armed]) matching, takeTrigger_armed (by simpa using armed),
      modLane_modLane]
    dsimp only
    refine congrArg Host.Outcome.next (modLane_congr ?_)
    rw [State.modLane_lane, if_pos rfl]
    rfl
  · rw [exec_trigEdge_matching change (not_stopped_of_inRun run) matching, takeTrigger_inRun (by simpa using run),
      modLane_modLane]

/-! ### Events sent as commands (R48, R51, R173) -/

theorem pauseEndIfDue_due {l : LaneState} (pausing : l.gen.state = .pausing) (due : l.gen.pos.pause = 0) :
    pauseEndIfDue l = { l with gen := { l.gen with state := .running } } := by
  rw [pauseEndIfDue_pausing pausing, if_pos due]

theorem pauseEndIfDue_notDue {l : LaneState} (h : l.gen.state ≠ .pausing ∨ l.gen.pos.pause ≠ 0) :
    pauseEndIfDue l = l := by
  rw [pauseEndIfDue, if_neg]
  simp only [Bool.and_eq_true, beq_iff_eq]
  rintro ⟨hs, hp⟩
  exact h.elim (fun h => h hs) (fun h => h hp)

/-- A word limit that is reached ends the run (R51). -/
theorem wordLimitIfReached_reached {s : State} {n : Lane}
    (h : limitReached (s.lane n).plan (s.lane n).gen = true) :
    wordLimitIfReached s n = withEvent (.runDone n) (s.modLane n fun l =>
      { l with gen := { l.gen with
        state := .armed
        pendingTrigger := false
        pos := { seg := l.plan.first, r := 0, i := 0, p := 0, pause := 0 }
        runsCompleted := l.gen.runsCompleted + 1 } }) := by
  rw [wordLimitIfReached, if_pos h]
  rfl

theorem wordLimitIfReached_short {s : State} {n : Lane}
    (h : ¬ limitReached (s.lane n).plan (s.lane n).gen = true) : wordLimitIfReached s n = s := by
  rw [wordLimitIfReached, if_neg h]

theorem holdoffExpiryIfDue_due {h : Holdoff} (running : h.running = true) (due : h.remaining = 0) :
    holdoffExpiryIfDue h = { running := false, remaining := 0 } := by
  rw [holdoffExpiryIfDue, if_pos (by simp [running, due])]
  rfl

theorem holdoffExpiryIfDue_notDue {h : Holdoff} (hd : h.running = false ∨ h.remaining ≠ 0) :
    holdoffExpiryIfDue h = h := by
  rw [holdoffExpiryIfDue, if_neg]
  simp only [Bool.and_eq_true, beq_iff_eq]
  rintro ⟨hr, h0⟩
  exact hd.elim (fun h => by simp [hr] at h) (fun h => h h0)

/-- A port changed to what it is. -/
theorem modPort_eq_self {s : State} {p : Port} {f : PortState → PortState} (h : f (s.port p) = s.port p) :
    s.modPort p f = s := by
  rw [State.modPort, h]
  cases p <;> rfl

/-- Settles O44: each event's condition decides between its act and nothing. -/
theorem dueEventsActWhenDue : Obligations.DueEventsActWhenDue := by
  refine ⟨fun n s => ⟨fun ⟨pausing, due⟩ => ?_, fun notDue => ?_⟩, fun n s => ⟨fun run limit reached => ?_, fun short => ?_⟩,
    fun p s => ⟨fun ⟨running, due⟩ => ?_, fun notDue => ?_⟩⟩
  · rw [exec, execPauseEnd]
    exact congrArg Host.Outcome.next (modLane_congr (pauseEndIfDue_due pausing due))
  · rw [exec, execPauseEnd, modLane_eq_self (pauseEndIfDue_notDue notDue)]
  · rw [exec, execWordLimitReached,
      wordLimitIfReached_reached (limitReached_iff.mpr ⟨inRun_iff.mpr run, limit, reached⟩)]
  · rw [exec, execWordLimitReached, wordLimitIfReached_short]
    rw [limitReached_iff, inRun_iff]
    rintro ⟨run, limit, reached⟩
    rcases short with h | h | h | h
    · exact not_stopped_of_inRun run h
    · exact not_armed_of_inRun run h
    · exact limit h
    · exact h reached
  · rw [exec, execHoldoffExpiry]
    refine congrArg Host.Outcome.next (modPort_congr ?_)
    rw [holdoffExpiryIfDue_due running due]
    rfl
  · rw [exec, execHoldoffExpiry, modPort_eq_self]
    rw [holdoffExpiryIfDue_notDue notDue]
    rfl

end Sys2Proof.Machine
end

section
/-!
PROOF. The transmit slots of the statements (R37, R46 to R49, R51, R53, R57, R62, R68, R70 to R72): the state a slot
leaves for the looped checkers is read off `transmit_running`, `transmit_pausing` and `transmit_idle`.
-/

namespace Sys2Proof.Machine

/-! ### The word offered (R57 step 4, R76) -/

/-- A slot of lane n sends word `w` and leaves `u`, which the looped checkers are offered, if there are any. -/
def SlotSends (n : Lane) (w : Word) (s u : State) : Prop :=
  exec (.transmitSlot n) s = offered n w u ∧ (NoLoop s n → exec (.transmitSlot n) s = .next u)

theorem offered_nobody {n : Lane} {w : Word} {s : State} (h : NoLoop s n) : offered n w s = .next s := by
  rw [offered, deliver_nobody h, walkOutcome]

/-- The routes stand while the word is made, so that a word that no checker takes goes nowhere. -/
theorem slotSends {n : Lane} {w : Word} {s u : State} (h : transmit s n = deliver (.loop n) w u)
    (routes : ∀ m, (u.lane m).route = (s.lane m).route) : SlotSends n w s u := by
  have he : exec (.transmitSlot n) s = offered n w u := congrArg walkOutcome h
  exact ⟨he, fun hn => he.trans (offered_nobody fun m => routes m ▸ hn m)⟩

/-- A slot of a run sends its word with its flips. -/
theorem slotSends_running {n : Lane} {s : State} {w flips : Word} {counted : Bool} {prbs : BitVec 32}
    {used : InjectUnit} (running : (s.lane n).gen.state = .running) (hw : PatternWordIs s n w counted prbs)
    (hflips : FlipsAre s n counted flips used) : ∃ step, StepIs s n step ∧
      SlotSends n (w ^^^ flips) s (afterPatternWord (emitted n (w ^^^ flips) flips used prbs s) n step) := by
  obtain ⟨step, hstep, hx⟩ := hw.patternWord
  have ht := transmit_running (x := { word := w, counted := counted, step := step, prbs := prbs }) running hx hflips
  have hwalk := SlotStep.afterPatternWord (emitted n (w ^^^ flips) flips used prbs s) n step
  exact ⟨step, hstep, slotSends ht fun m =>
    (hwalk.lane m).route.trans (LaneKept.emitted n m (w ^^^ flips) flips used prbs s).route⟩

/-! ### The walk after a word (R46, R47, R51, R53) -/

section
variable {n : Lane} {s : State}

theorem afterPatternWord_reached (h : limitReached (s.lane n).plan (s.lane n).gen = true) (step : Option Advance) :
    afterPatternWord s n step = wordLimitIfReached s n := by
  unfold afterPatternWord
  rw [if_pos h]

theorem afterPatternWord_freeRun (h : ¬ limitReached (s.lane n).plan (s.lane n).gen = true) :
    afterPatternWord s n none = s := by
  unfold afterPatternWord
  rw [if_neg h]

theorem afterPatternWord_onward (h : ¬ limitReached (s.lane n).plan (s.lane n).gen = true) (q : Pos) :
    afterPatternWord s n (some (.onward q)) = s.modLane n fun l => { l with gen := { l.gen with pos := q } } := by
  unfold afterPatternWord
  rw [if_neg h]
  rfl

theorem afterPatternWord_passEnd (h : ¬ limitReached (s.lane n).plan (s.lane n).gen = true) :
    afterPatternWord s n (some .passEnd) = endPass s n := by
  unfold afterPatternWord
  rw [if_neg h]

end

/-! ### The word limit (R51) -/

section
variable {n : Lane} {s : State} {k : LaneState}

/-- The word that would not reach the limit has not reached it. -/
theorem not_limitReached_of_short (h : ShortOfLimit s n) (plan : k.plan = (s.lane n).plan)
    (words : k.gen.wordsEmitted = (s.lane n).gen.wordsEmitted + 1) : ¬ limitReached k.plan k.gen = true := by
  rw [limitReached_iff, plan, words]
  rintro ⟨-, limit, he⟩
  rcases h with h | h
  · exact limit h
  · have hpos : 0 < (s.lane n).plan.wordLimit.toNat := Nat.pos_of_ne_zero fun h0 => limit (BitVec.eq_of_toNat_eq h0)
    bv_omega

theorem limitReached_of_last (limit : (s.lane n).plan.wordLimit ≠ 0)
    (last : (s.lane n).gen.wordsEmitted.toNat + 1 = (s.lane n).plan.wordLimit.toNat) (run : inRun k.gen = true)
    (plan : k.plan = (s.lane n).plan) (words : k.gen.wordsEmitted = (s.lane n).gen.wordsEmitted + 1) :
    limitReached k.plan k.gen = true := by
  rw [limitReached_iff, plan, words]
  exact ⟨run, limit, by bv_omega⟩

end

section
variable (n : Lane) (w flips : Word) (used : InjectUnit) (prbs : BitVec 32) (s : State)

theorem emitted_plan : ((emitted n w flips used prbs s).lane n).plan = (s.lane n).plan :=
  (LaneKept.emitted n n w flips used prbs s).plan

theorem emitted_sig : ((emitted n w flips used prbs s).lane n).sig =
    { (s.lane n).sig with reg := foldWord (s.lane n).sig.reg w } := by
  rw [emitted_lane, if_pos rfl]

theorem emitted_short (h : ShortOfLimit s n) :
    ¬ limitReached ((emitted n w flips used prbs s).lane n).plan ((emitted n w flips used prbs s).lane n).gen = true :=
  not_limitReached_of_short h (emitted_plan ..) (by rw [emitted_gen])

end

/-! ### Words within a pass (R46, R53) -/

/-- Settles O25: short of the limit the walk goes to its next position, and a FREE-RUN word keeps its position. -/
theorem runningSlotEmitsAndWalksOn : Obligations.RunningSlotEmitsAndWalksOn := by
  refine ⟨fun n w s h => offered_nobody h, ?_⟩
  rintro n s t w flips counted prbs used running short hw hflips rfl
  have hshort := emitted_short n (w ^^^ flips) flips used prbs s short
  obtain ⟨step, hstep, hsend⟩ := slotSends_running running hw hflips
  refine ⟨?_, fun hm => ?_⟩
  · rintro sg q hm hsg onward u rfl
    obtain ⟨hfree, -⟩ | ⟨-, sg', hsg', rfl⟩ := hstep
    · exact absurd (hm.symm.trans hfree) (by decide)
    · cases hsg.symm.trans hsg'
      rwa [onward.advance, afterPatternWord_onward hshort] at hsend
  · obtain ⟨-, rfl⟩ | ⟨hseq, -⟩ := hstep
    · rwa [afterPatternWord_freeRun hshort] at hsend
    · exact absurd (hm.symm.trans hseq) (by decide)

/-! ### The last word of a pass (R47 to R49, R72) -/

theorem passesRemain_iff {l : LaneState} : passesRemain l = true ↔
    l.plan.passCount = 0 ∨ l.gen.passesDone.toNat < l.plan.passCount.toNat := by
  simp only [passesRemain, Bool.or_eq_true, beq_iff_eq, decide_eq_true_eq]

/-- What ends a pass leaves: the next pass, a seamless run, or ARMED with RUN_DONE. -/
theorem endPass_eq (t : State) (n : Lane) {l : LaneState} (hl : l = latchPass (t.lane n)) : endPass t n =
    if l.plan.passCount = 0 ∨ l.gen.passesDone.toNat < l.plan.passCount.toNat then t.setLane n (nextPass l)
    else if l.gen.pendingTrigger = true then
      t.setLane n (begunRun (freeRunSeed t l.plan)
        { l with gen := { l.gen with pendingTrigger := false, runsCompleted := l.gen.runsCompleted + 1 } })
    else withEvent (.runDone n) (t.setLane n (l.modGen (armAfterRun l.plan))) := by
  subst hl
  have hlane : (t.modLane n latchPass).lane n = latchPass (t.lane n) := by rw [State.modLane_lane, if_pos rfl]
  simp only [← passesRemain_iff, endPass, endRunByPasses, hlane]
  split
  · exact modLane_modLane ..
  · split
    · rw [beginRun_eq, modLane_modLane, modLane_modLane, State.modLane_lane, if_pos rfl, hlane]
      rfl
    · rw [modLane_modLane]
      rfl

/-- Settles O26: after the emitted word the walk is `endPass`, whose three outcomes `endPass_eq` names. -/
theorem lastWordEndsThePass : Obligations.LastWordEndsThePass := by
  rintro n s t u w flips counted prbs used sg ended running short hw hflips rfl hm hsg atEnd hended hu
  have hshort := emitted_short n (w ^^^ flips) flips used prbs s short
  obtain ⟨step, hstep, hsend⟩ := slotSends_running running hw hflips
  obtain ⟨hfree, -⟩ | ⟨-, sg', hsg', rfl⟩ := hstep
  · exact absurd (hm.symm.trans hfree) (by decide)
  cases hsg.symm.trans hsg'
  have hlatch : ended = latchPass ((emitted n (w ^^^ flips) flips used prbs s).lane n) := by
    rw [hended, latchPass, emitted_sig, emitted_gen]
  have hplan : ended.plan = (s.lane n).plan := by
    rw [hended]
    exact emitted_plan ..
  have hpend : ended.gen.pendingTrigger = (s.lane n).gen.pendingTrigger := by
    rw [hended]
    show ((emitted n (w ^^^ flips) flips used prbs s).lane n).gen.pendingTrigger = _
    rw [emitted_gen]
  rw [atEnd.advance, afterPatternWord_passEnd hshort] at hsend
  have hend := endPass_eq (emitted n (w ^^^ flips) flips used prbs s) n hlatch
  have hue : u = endPass (emitted n (w ^^^ flips) flips used prbs s) n := by
    rw [hend, freeRunSeed_congr (emitted_record ..), hu, ← hplan, ← hpend]
    rfl
  rw [hue]
  exact hsend

/-! ### Idle and pause slots, and the word limit (R37, R48, R51) -/

/-- A slot of a pause that is short of the word limit. -/
theorem pausingSlot_short {n : Lane} {s : State} (pausing : (s.lane n).gen.state = .pausing)
    (left : (s.lane n).gen.pos.pause ≠ 0) (short : ShortOfLimit s n) : pausingSlot s n = s.modLane n fun l =>
      { l with gen := { l.gen with
        state := if l.gen.pos.pause = 1 then .running else .pausing
        pos := { l.gen.pos with pause := l.gen.pos.pause - 1 }
        wordsEmitted := l.gen.wordsEmitted + 1 } } := by
  have hshort : ¬ limitReached ((s.modLane n LaneState.pauseWordUsed).lane n).plan
      ((s.modLane n LaneState.pauseWordUsed).lane n).gen = true := by
    rw [State.modLane_lane, if_pos rfl]
    exact not_limitReached_of_short short rfl rfl
  have hpause : BitVec.ofNat 16 ((s.lane n).gen.pos.pause.toNat - 1) = (s.lane n).gen.pos.pause - 1 := by bv_omega
  have hlast : (s.lane n).gen.pos.pause - 1 = 0 ↔ (s.lane n).gen.pos.pause = 1 := sub_eq_zero
  rw [pausingSlot_eq, wordLimitIfReached_short hshort, modLane_modLane]
  refine modLane_congr ?_
  rw [pauseEndIfDue_pausing (l := (s.lane n).pauseWordUsed) pausing]
  simp only [LaneState.pauseWordUsed, hpause, hlast]

/-- A slot of a pause that reaches the word limit (R51). -/
theorem pausingSlot_last {n : Lane} {s : State} (pausing : (s.lane n).gen.state = .pausing)
    (limit : (s.lane n).plan.wordLimit ≠ 0)
    (last : (s.lane n).gen.wordsEmitted.toNat + 1 = (s.lane n).plan.wordLimit.toNat) :
    pausingSlot s n = withEvent (.runDone n) (s.modLane n fun l => { l with gen := endedRun l.plan l.gen }) := by
  have hreached : limitReached ((s.modLane n LaneState.pauseWordUsed).lane n).plan
      ((s.modLane n LaneState.pauseWordUsed).lane n).gen = true := by
    rw [State.modLane_lane, if_pos rfl]
    exact limitReached_of_last limit last (inRun_iff.mpr (.inr pausing)) rfl rfl
  rw [pausingSlot_eq, wordLimitIfReached_reached hreached, modLane_modLane]
  exact congrArg (withEvent (.runDone n)) (modLane_modLane ..)

theorem placeWord_withEvent (e : Event) (s : State) (n : Lane) (w : Word) :
    placeWord (withEvent e s) n w = withEvent e (placeWord s n w) := rfl

theorem slotSends_pausing {n : Lane} {s u : State} (pausing : (s.lane n).gen.state = .pausing)
    (hu : placeWord (pausingSlot s n) n (s.lane n).plan.idleWord = u) :
    SlotSends n (s.lane n).plan.idleWord s u := by
  subst hu
  have hf : fillSlot s n = .ok ((s.lane n).plan.idleWord, pausingSlot s n) := by simp only [fillSlot, pausing]
  have hslot := (SlotStep.fillSlot hf).trans (SlotStep.modLane (pausingSlot s n) n
    (f := fun l => { l with txBus := (s.lane n).plan.idleWord }) ⟨rfl, rfl, rfl, rfl, rfl, rfl⟩)
  exact slotSends (transmit_pausing pausing) fun m => (hslot.lane m).route

/-- Settles O27: what a slot of a pause leaves, the word limit after a word of either plan mode, and the idle word. -/
theorem idleAndPauseSlotsAndTheWordLimit : Obligations.IdleAndPauseSlotsAndTheWordLimit := by
  refine ⟨fun n s u pausing => ⟨fun left short hu => ?_, fun limit last hu => ?_⟩, ?_, fun n s u idle hu => ?_⟩
  · refine slotSends_pausing pausing ?_
    rw [pausingSlot_short pausing left short, placeWord, modLane_modLane, hu]
    rfl
  · refine slotSends_pausing pausing ?_
    rw [pausingSlot_last pausing limit last, placeWord_withEvent, placeWord, modLane_modLane, hu]
    exact congrArg (withEvent (.runDone n)) (modLane_congr rfl)
  · rintro n s u w flips counted prbs used running limit last hw hflips rfl
    obtain ⟨step, -, hsend⟩ := slotSends_running running hw hflips
    have hreached : limitReached ((emitted n (w ^^^ flips) flips used prbs s).lane n).plan
        ((emitted n (w ^^^ flips) flips used prbs s).lane n).gen = true :=
      limitReached_of_last limit last (inRun_iff.mpr (.inl (by rw [emitted_gen]; exact running))) (emitted_plan ..)
        (by rw [emitted_gen])
    have hu : withEvent (.runDone n) ((emitted n (w ^^^ flips) flips used prbs s).modLane n fun l =>
        { l with gen := { endedRun l.plan (s.lane n).gen with prbs := prbs } }) =
        wordLimitIfReached (emitted n (w ^^^ flips) flips used prbs s) n := by
      rw [wordLimitIfReached_reached hreached]
      refine congrArg (withEvent (.runDone n)) (modLane_congr ?_)
      rw [emitted_gen]
      rfl
    rw [hu]
    rwa [afterPatternWord_reached hreached] at hsend
  · subst hu
    refine slotSends (transmit_idle idle) fun m => ?_
    exact ((SlotStep.modLane s n (f := fun l => { l with txBus := (s.lane n).plan.idleWord })
      ⟨rfl, rfl, rfl, rfl, rfl, rfl⟩).lane m).route

/-! ### Every word of a run (R57, R62, R68, R70, R71) -/

theorem injectEligible_totals (u : InjectUnit) :
    (injectEligible u).2.bits = u.bits ∧ (injectEligible u).2.words = u.words := by
  unfold injectEligible
  split
  case h_4 => split <;> exact ⟨rfl, rfl⟩
  all_goals exact ⟨rfl, rfl⟩

/-- Flipping bits leaves the totals for the slot to raise. -/
theorem FlipsAre.totals {s : State} {n : Lane} {counted : Bool} {flips : Word} {used : InjectUnit}
    (h : FlipsAre s n counted flips used) :
    used.bits = (s.lane n).inject.bits ∧ used.words = (s.lane n).inject.words := by
  rcases h with ⟨-, he⟩ | ⟨-, -, rfl⟩
  · have ht := injectEligible_totals (s.lane n).inject
    rwa [he] at ht
  · exact ⟨rfl, rfl⟩

theorem addInjected_setting (u : InjectUnit) (k : Nat) : (addInjected u k).setting = u.setting := by
  unfold addInjected
  split <;> rfl

theorem addInjected_bits (u : InjectUnit) (k : Nat) :
    (addInjected u k).bits.toNat = min (u.bits.toNat + k) (2 ^ 48 - 1) := by
  unfold addInjected
  split
  · omega
  · exact saturatingAdd_toNat ..

theorem addInjected_words (u : InjectUnit) (k : Nat) :
    (addInjected u k).words.toNat = min (u.words.toNat + if k = 0 then 0 else 1) (2 ^ 40 - 1) := by
  unfold addInjected
  split
  · omega
  · exact saturatingAdd_toNat ..

theorem creditLane_injected (n : Lane) (k : Nat) (l : LaneState) :
    (creditLane n k l).acc.interval.injected.toNat =
      if l.route.associate = some n ∧ counting l = true then min (l.acc.interval.injected.toNat + k) (2 ^ 32 - 1)
      else l.acc.interval.injected.toNat := by
  rw [creditLane_eq]
  split
  · exact saturatingAdd_toNat ..
  · rfl

theorem creditLane_eq_acc (n : Lane) (k : Nat) (l : LaneState) :
    creditLane n k l = { l with acc := (creditLane n k l).acc } := by
  rw [creditLane_eq]
  split <;> rfl

/-- A credit reaches the injected field of the running interval alone. -/
theorem creditLane_acc (n : Lane) (k : Nat) (l : LaneState) : (creditLane n k l).acc =
    { l.acc with interval := { l.acc.interval with injected := (creditLane n k l).acc.interval.injected } } := by
  rw [creditLane_eq]
  split <;> rfl

/-- The state that a RUNNING slot leaves when no looped checker hears its word. -/
def slotLeaves (n : Lane) (w flips : Word) (used : InjectUnit) (prbs : BitVec 32) (step : Option Advance) (s : State) :
    State :=
  afterPatternWord (emitted n w flips used prbs s) n step

section
variable (n : Lane) (w flips : Word) (used : InjectUnit) (prbs : BitVec 32) (step : Option Advance) (s : State)

/-- The walk gives the slot's own lane its generator, pass signature and period count; the word gives the rest. -/
theorem slotLeaves_own : WalkKept { creditLane n (ones flips) (s.lane n) with
      inject := addInjected used (ones flips)
      sig := { (s.lane n).sig with reg := foldWord (s.lane n).sig.reg w }
      txBus := w }
    ((slotLeaves n w flips used prbs step s).lane n) := by
  have h := WalkKept.afterPatternWord (emitted n w flips used prbs s) n step
  rw [emitted_lane, if_pos rfl] at h
  exact h

theorem slotLeaves_lane_ne {m : Lane} (h : m ≠ n) :
    (slotLeaves n w flips used prbs step s).lane m = creditLane n (ones flips) (s.lane m) := by
  rw [slotLeaves, afterPatternWord_lane_ne h, emitted_lane, if_neg h]

/-- On every lane the slot reaches the accumulators by its credit alone. -/
theorem slotLeaves_acc (m : Lane) :
    ((slotLeaves n w flips used prbs step s).lane m).acc = (creditLane n (ones flips) (s.lane m)).acc := by
  by_cases h : m = n
  · subst h
    have hown := slotLeaves_own m w flips used prbs step s
    exact (congrArg LaneState.acc hown :)
  · rw [slotLeaves_lane_ne _ _ _ _ _ _ _ h]

end

/-- Settles O28: each field is read off the lane that the word leaves, which the walk after it keeps. -/
theorem countedSlotIsInjected : Obligations.CountedSlotIsInjected := by
  intro n s w flips counted prbs used quiet running hw hflips
  obtain ⟨step, -, -, hexec⟩ := slotSends_running running hw hflips
  obtain ⟨hbits, hwords⟩ := hflips.totals
  have hown := slotLeaves_own n (w ^^^ flips) flips used prbs step s
  have hacc := slotLeaves_acc n (w ^^^ flips) flips used prbs step s
  have hwalk := SlotStep.afterPatternWord (emitted n (w ^^^ flips) flips used prbs s) n step
  have hbus : ((slotLeaves n (w ^^^ flips) flips used prbs step s).lane n).txBus = w ^^^ flips :=
    congrArg LaneState.txBus hown
  have hsetting : ((slotLeaves n (w ^^^ flips) flips used prbs step s).lane n).inject.setting = used.setting :=
    (congrArg (·.inject.setting) hown).trans (addInjected_setting ..)
  refine ⟨slotLeaves n (w ^^^ flips) flips used prbs step s, hexec quiet, hbus, congrArg (·.sig.reg) hown,
    fun hc => ?uncounted, hsetting, ?bits, ?words, fun m => ?injected, fun m hm => ?others, fun m => ?acc,
    (congrArg LaneState.plan hown).trans (LaneKept.creditLane ..).plan,
    (congrArg LaneState.route hown).trans (LaneKept.creditLane ..).route,
    (congrArg LaneState.checker hown).trans (creditLane_checker ..),
    (congrArg LaneState.timer hown).trans (creditLane_timer ..),
    (congrArg LaneState.ring hown).trans (creditLane_ring ..), hwalk.segs, hwalk.store, hwalk.holders⟩
  case uncounted =>
    obtain ⟨ht, -⟩ | ⟨-, hz, hu⟩ := hflips
    · exact absurd (hc.symm.trans ht) (by decide)
    · rw [hbus, hsetting, hz, hu]
      exact ⟨BitVec.xor_zero, rfl⟩
  case bits => rw [congrArg (·.inject.bits) hown, addInjected_bits, hbits]
  case words => rw [congrArg (·.inject.words) hown, addInjected_words, hwords]
  case injected => rw [hacc, creditLane_injected]
  case others => rw [slotLeaves_lane_ne _ _ _ _ _ _ _ hm]; exact creditLane_eq_acc ..
  case acc => rw [hacc]; exact creditLane_acc ..

end Sys2Proof.Machine
end

section
/-!
PROOF. The bits that an injection setting flips (R63 to R65) and the folding of a word into a signature (R71).
-/

namespace Sys2Proof.Machine

/-! ### Flipped bits (R63 to R65) -/

/-- The flip of SINGLE and PERIODIC is the named bit alone. -/
theorem singleBit_getLsbD (b : BitVec 6) (j : Nat) :
    (BitVec.ofNat 64 (2 ^ b.toNat)).getLsbD j = decide (j = b.toNat) := by
  have hb := b.isLt
  rw [BitVec.getLsbD_ofNat, Nat.testBit_two_pow, ← Bool.decide_and]
  exact decide_eq_decide.mpr (by omega)

/-- The ones from bit `k` up to below bit `m`. -/
theorem testBit_two_pow_sub_two_pow {k m : Nat} (h : k ≤ m) (j : Nat) :
    (2 ^ m - 2 ^ k).testBit j = decide (k ≤ j ∧ j < m) := by
  have hrun : 2 ^ m - 2 ^ k = (2 ^ (m - k) - 1) * 2 ^ k := by
    rw [Nat.sub_mul, ← Nat.pow_add, Nat.sub_add_cancel h, Nat.one_mul]
  rw [hrun, Nat.testBit_mul_two_pow, Nat.testBit_two_pow_sub_one, ← Bool.decide_and]
  exact decide_eq_decide.mpr (by omega)

/-- A burst flips from its bit downward, to bit 0 at the lowest (R64). -/
theorem burstMask_getLsbD (b : BitVec 6) (len : BitVec 7) (j : Nat) :
    (burstMask b len).getLsbD j = decide (j ≤ b.toNat ∧ b.toNat < j + len.toNat) := by
  have hb := b.isLt
  rw [burstMask, BitVec.getLsbD_ofNat, testBit_two_pow_sub_two_pow (by omega), ← Bool.decide_and]
  exact decide_eq_decide.mpr (by omega)

/-- How many of the first `n` numbers lie from `lo` up to below `hi`. -/
theorem countP_range_between (lo hi n : Nat) :
    (List.range n).countP (fun j => decide (lo ≤ j ∧ j < hi)) = min n hi - lo := by
  induction n with
  | zero => simp
  | succ n ih =>
    simp only [List.range_succ, List.countP_append, ih, List.countP_singleton, decide_eq_true_iff]
    split <;> omega

/-- A burst that would pass below bit 0 is cut off there (R64). -/
theorem ones_burstMask (b : BitVec 6) (len : BitVec 7) : ones (burstMask b len) = min len.toNat (b.toNat + 1) := by
  have hb := b.isLt
  have hbits : (fun j => (burstMask b len).getLsbD j) =
      fun j => decide (b.toNat + 1 - len.toNat ≤ j ∧ j < b.toNat + 1) :=
    funext fun j => (burstMask_getLsbD b len j).trans (decide_eq_decide.mpr (by omega))
  rw [ones, hbits, countP_range_between]
  omega

section
variable {u : InjectUnit} {b : BitVec 6}

theorem injectEligible_off (h : u.setting = .off) : injectEligible u = (0, u) := by
  rw [injectEligible, h]

theorem injectEligible_single (h : u.setting = .single b) :
    injectEligible u = (BitVec.ofNat 64 (2 ^ b.toNat), { u with setting := .off }) := by
  rw [injectEligible, h]

theorem injectEligible_burst {len : BitVec 7} (h : u.setting = .burst b len) :
    injectEligible u = (burstMask b len, { u with setting := .off }) := by
  rw [injectEligible, h]

theorem injectEligible_periodic {period : BitVec 24} (h : u.setting = .periodic b period) :
    injectEligible u = if u.periodCount.toNat + 1 = period.toNat then
      (BitVec.ofNat 64 (2 ^ b.toNat), { u with periodCount := 0 })
    else (0, { u with periodCount := u.periodCount + 1 }) := by
  rw [injectEligible, h]

end

/-! ### Folded bits (R71) -/

/-- Each stage takes the one below it, and s0 the feedback. -/
theorem foldBit_getLsbD (reg : BitVec 31) (d : Bool) {j : Nat} (hj : j < 31) : (foldBit reg d).getLsbD j =
    if j = 0 then (reg.getLsbD 30 ^^ reg.getLsbD 2 ^^ d) else reg.getLsbD (j - 1) := by
  rw [foldBit, BitVec.getLsbD_or, BitVec.getLsbD_shiftLeft, BitVec.getLsbD_ofNat, Nat.testBit_bool_toNat]
  cases j with
  | zero => simp
  | succ j => simp [hj]

/-- The shift and its feedback are linear. -/
theorem foldBit_xor (x y : BitVec 31) (c d : Bool) : foldBit (x ^^^ y) (c ^^ d) = foldBit x c ^^^ foldBit y d := by
  refine BitVec.eq_of_getLsbD_eq fun j hj => ?_
  simp only [BitVec.getLsbD_xor, foldBit_getLsbD _ _ hj]
  split
  · simp only [Bool.xor_assoc, Bool.xor_left_comm]
  · rfl

theorem foldBits_xor (v w : Word) (k : Nat) (x y : BitVec 31) :
    foldBits (v ^^^ w) k (x ^^^ y) = foldBits v k x ^^^ foldBits w k y := by
  induction k generalizing x y with
  | zero => rfl
  | succ k ih => rw [foldBits, BitVec.getLsbD_xor, foldBit_xor, ih, foldBits, foldBits]

/-- The bits still to be folded are taken from the highest down. -/
theorem foldBits_eq_foldl (w : Word) (k : Nat) (reg : BitVec 31) :
    foldBits w k reg = (List.range k).foldl (fun r i => foldBit r (w.getLsbD (k - 1 - i))) reg := by
  induction k generalizing reg with
  | zero => rfl
  | succ k ih =>
    rw [foldBits, ih, List.range_succ_eq_map, List.foldl_cons, List.foldl_map]
    simp only [Nat.add_sub_cancel, Nat.sub_zero, Nat.succ_eq_add_one, Nat.sub_sub, Nat.add_comm 1]

/-- Settles O29: one clause for each setting, then the fold bit by bit. -/
theorem injectedAndFoldedBits : Obligations.InjectedAndFoldedBits := by
  refine ⟨⟨fun u off => injectEligible_off off, fun u b single => ?_, fun u b len burst _ => ?_,
    fun u b period periodic => ⟨fun due => ?_, fun notDue => ?_⟩⟩, fun reg d j hj => foldBit_getLsbD reg d hj,
    fun reg w => foldBits_eq_foldl w 64 reg, fun x y v w => foldBits_xor v w 64 x y⟩
  · rw [injectEligible_single single]
    exact ⟨rfl, singleBit_getLsbD b⟩
  · rw [injectEligible_burst burst]
    exact ⟨rfl, burstMask_getLsbD b len, ones_burstMask b len⟩
  · rw [injectEligible_periodic periodic, if_pos due]
    exact ⟨rfl, singleBit_getLsbD b⟩
  · rw [injectEligible_periodic periodic, if_neg notDue]

end Sys2Proof.Machine
end

section
/-!
PROOF. The commands that clear or replace one part of a lane (R66, R69, R73, R78, R80, R113, R118): a taken command
changes its lane and answers, whichever port sent it.
-/

namespace Sys2Proof.Machine

section
variable {s : State} {p : Port} {n : Lane}

/-! ### A lane changed by a taken command -/

/-- A lane command on an open lane whose body changes that lane. -/
theorem laneCommand_changes (h : LaneOpen s p n) {code : Byte} {needs : Bool} {body : Lane → State → Answer}
    {fields : List Byte} {g : LaneState → LaneState}
    (hb : body n (s.shifted p 2) = .done .ok fields ((s.shifted p 2).modLane n g)) :
    laneCommand p.frame code needs [laneCode n] body s =
      .next ((replied p 2 { status := .ok, code := code, fields := fields } s).modLane n g) := by
  rw [laneCommand_open h, hb, settle_done, shifted_modLane_respond]

/-- A command whose body changes a lane. -/
theorem portCommand_changes (h : FramesTaken s p) {code : Byte} {args : List Byte} {body : State → Answer}
    {fields : List Byte} {g : LaneState → LaneState}
    (hb : body (s.shifted p (1 + args.length)) = .done .ok fields ((s.shifted p (1 + args.length)).modLane n g)) :
    portCommand p.frame code args body s =
      .next ((replied p (1 + args.length) { status := .ok, code := code, fields := fields } s).modLane n g) := by
  rw [portCommand_taken h, hb, settle_done, shifted_modLane_respond]

/-- Free bytes are taken beside the reply. -/
theorem useFree_respond (s : State) (k : Nat) (p : Port) (r : Response) :
    (s.useFree k).respond p r = (s.respond p r).useFree k := by
  cases p <;> rfl

/-- A command whose body changes a lane and whose reply holds free bytes (logs 8 and 9). -/
theorem portCommand_changes_free (h : FramesTaken s p) {code : Byte} {args : List Byte} {body : State → Answer}
    {fields : List Byte} {g : LaneState → LaneState} {k : Nat}
    (hb : body (s.shifted p (1 + args.length)) =
      .done .ok fields (((s.shifted p (1 + args.length)).modLane n g).useFree k)) :
    portCommand p.frame code args body s =
      .next (((replied p (1 + args.length) { status := .ok, code := code, fields := fields } s).modLane n g).useFree
        k) := by
  rw [portCommand_taken h, hb, settle_done, useFree_respond, shifted_modLane_respond]

/-! ### The clears of a lane (R69, R73, R113) -/

theorem exec_injectTotalsClear (h : LaneOpen s p n) : exec (.injectTotalsClear p.frame [laneCode n]) s =
    .next ((replied p 2
      { status := .ok, code := 0x32, fields := laneCode n :: injectTotalsBytes (s.lane n).inject } s).modLane n
      fun l => { l with inject := { l.inject with bits := 0, words := 0 } }) := by
  rw [exec, execInjectTotalsClear]
  exact laneCommand_changes h (by rw [State.shifted_lane])

theorem exec_sigClear (h : LaneOpen s p n) : exec (.sigClear p.frame [laneCode n]) s =
    .next ((replied p 2 { status := .ok, code := 0x33, fields := [laneCode n] } s).modLane n fun l =>
      { l with sig := { reg := 0, pass := none } }) := by
  rw [exec, execSigClear]
  exact laneCommand_changes h rfl

theorem exec_totalsClear (h : LaneOpen s p n) : exec (.totalsClear p.frame [laneCode n]) s =
    .next ((replied p 2
      { status := .ok, code := 0x41, fields := laneCode n :: runTotalsBytes (s.lane n).acc.run } s).modLane n
      fun l => l.modAcc zeroRun) := by
  rw [exec, execTotalsClear]
  exact laneCommand_changes h (by rw [State.shifted_lane])

/-! ### The setting commands (R66, R78, R80, R118) -/

theorem LaneOpen.free (h : LaneOpen s p n) : heldByOther s p (laneResource n) = false :=
  heldByOther_eq_false.mpr h.2

theorem exec_injectSet (h : LaneOpen s p n) {kind bit len p2 p1 p0 : Byte} {x : Injection}
    (hx : injectionOfBytes kind bit len (ofBe [p2, p1, p0]) = some x) :
    exec (.injectSet p.frame [laneCode n, kind, bit, len, p2, p1, p0]) s =
      .next (((replied p 8
        { status := .ok, code := 0x30, fields := laneCode n :: injectionBytes x (freeBytes s 5) } s).modLane n
        (setInjection x)).useFree 5) := by
  rw [exec, execInjectSet]
  refine portCommand_changes_free h.1 (args := [laneCode n, kind, bit, len, p2, p1, p0]) ?_
  have hperiod : fieldAt [laneCode n, kind, bit, len, p2, p1, p0] 4 3 = ofBe [p2, p1, p0] := rfl
  simp [byteAt, hperiod, hx, h.free, injectionFree]

theorem exec_routeSet (h : LaneOpen s p n) {kind m g : Byte} {r : Route} (hr : routeOfBytes kind m g = some r)
    (off : (s.lane n).checker.state = .off) : exec (.routeSet p.frame [laneCode n, kind, m, g]) s =
      .next ((replied p 5 { status := .ok, code := 0x38, fields := laneCode n :: routeBytes r } s).modLane n fun l =>
        { l with route := r }) := by
  rw [exec, execRouteSet]
  refine portCommand_changes h.1 (args := [laneCode n, kind, m, g]) ?_
  simp [hr, h.free, off]

/-- A configuration under a new overflow mode zeroes both sets of counts (R80). -/
theorem configureChecker_eq (c : CheckConfig) (l : LaneState) : configureChecker c l =
    { l with
      checker := { l.checker with config := c }
      acc := if l.checker.config.overflow = c.overflow then l.acc else zeroAll l.acc } := by
  unfold configureChecker
  split <;> rfl

theorem exec_checkConfig (h : LaneOpen s p n) {plan v t mode : Byte} {c : CheckConfig}
    (hc : checkConfigOfBytes plan v t mode = some c) (off : (s.lane n).checker.state = .off) :
    exec (.checkConfig p.frame [laneCode n, plan, v, t, mode]) s =
      .next ((replied p 6 { status := .ok, code := 0x39, fields := laneCode n :: checkConfigBytes c } s).modLane n
        (configureChecker c)) := by
  rw [exec, execCheckConfig]
  refine portCommand_changes h.1 (args := [laneCode n, plan, v, t, mode]) ?_
  simp [hc, h.free, off]

theorem exec_gateConfig (h : LaneOpen s p n) {rest : List Byte} {c : TimerConfig} (hlen : rest.length = 15)
    (hc : timerConfigOfBytes n rest = some c) (stop : (s.lane n).timer.state = .stop) :
    exec (.gateConfig p.frame (laneCode n :: rest)) s =
      .next (((replied p 17
        { status := .ok, code := 0x48,
          fields := laneCode n :: timerConfigBytes c (Config.freeByte s.freeCount) } s).modLane n fun l =>
        { l with timer := { l.timer with config := c } }).useFree (chainFree c.trigger)) := by
  have hframe : 17 = 1 + (laneCode n :: rest).length := by rw [List.length_cons, hlen]
  rw [exec, execGateConfig, hframe]
  refine portCommand_changes_free h.1 ?_
  simp [hlen, hc, h.free, stop]

end

/-- Settles O30: each command reads its lane as it stood, and the counts that CHECK_CONFIG keeps or zeroes are told by
the two overflow modes. -/
theorem clearsAndSettingsTakeEffect : Obligations.ClearsAndSettingsTakeEffect := by
  refine ⟨fun p n s h => ⟨exec_injectTotalsClear h, exec_sigClear h, exec_totalsClear h⟩, fun p n s h =>
    ⟨fun kind bit len p2 p1 p0 x hx => exec_injectSet h hx, fun kind m g r hr off => exec_routeSet h hr off,
      fun plan v t mode c hc off => ?_, fun rest c hlen hc stop => exec_gateConfig h hlen hc stop⟩⟩
  rw [exec_checkConfig h hc off, funext (configureChecker_eq c)]
  rfl

end Sys2Proof.Machine
end

section
/-!
PROOF. CHECK_START and CHECK_STOP on an open lane (R82, R84, R126).
-/

namespace Sys2Proof.Machine

/-! ### CHECK_START (R82) -/

/-- Settles O31: the marks are those of the plan's reach set, and SEARCH is entered with nothing counted. -/
theorem checkStartEntersSearch : Obligations.CheckStartEntersSearch := by
  intro p n s h off valid
  rw [exec, execCheckStart, laneCommand_open h, State.shifted_lane, checkerPlan_shifted, if_pos ⟨off, valid⟩,
    settle_done, startChecker, State.mark, withSegs_modLane_respond]
  simp only [checkerPlan_shifted, State.shifted_seg]
  rfl

/-! ### A close beside the shifted response (R161) -/

section
variable (s : State) (p : Port) (len : Nat) (n : Lane)

theorem shifted_modLane (f : LaneState → LaneState) : (s.shifted p len).modLane n f = (s.modLane n f).shifted p len := by
  cases p <;> rfl

theorem shifted_setLane (l : LaneState) : (s.shifted p len).setLane n l = (s.setLane n l).shifted p len := by
  cases p <;> rfl

theorem shifted_raise (e : Event) : (s.shifted p len).raise e = (s.raise e).shifted p len := by
  cases p <;> rfl

theorem shifted_unmark (w : Walker) : (s.shifted p len).unmark w = (s.unmark w).shifted p len := by
  rw [State.unmark_eq, State.unmark_eq]
  cases p <;> rfl

theorem shifted_modResult (f : ResultCursor → ResultCursor) :
    (s.shifted p len).modPorts (fun v => v.modResult n f) = (s.modPorts fun v => v.modResult n f).shifted p len := by
  cases p <;> rfl

theorem pushRecord_shifted (r : IntervalRecord) : pushRecord (s.shifted p len) n r = (pushRecord s n r).shifted p len := by
  simp only [pushRecord, State.shifted_lane, shifted_modLane]
  split
  · split
    · exact shifted_modResult ..
    · rfl
  · rfl

theorem offerClose_shifted (cause : CloseCause) (sender : Option Port) :
    offerClose (s.shifted p len) n cause sender = (offerClose s n cause sender).shifted p len := by
  unfold offerClose
  split
  · cases p <;> rfl
  · rfl

theorem closeWithRecord_shifted (cause : CloseCause) :
    closeWithRecord (s.shifted p len) n cause = (closeWithRecord s n cause).shifted p len := by
  simp only [closeWithRecord, State.shifted_lane, shifted_setLane, pushRecord_shifted, shifted_raise]
  split <;> rw [shifted_modLane]

theorem closeInterval_shifted (cause : CloseCause) (sender : Option Port) :
    closeInterval (s.shifted p len) n cause sender = (closeInterval s n cause sender).shifted p len := by
  simp only [closeInterval, State.shifted_lane, closeWithRecord_shifted, shifted_modLane]
  split <;> rw [offerClose_shifted]

theorem stopChecker_shifted : stopChecker (s.shifted p len) n = (stopChecker s n).shifted p len := by
  simp only [stopChecker, closeAndStop, State.shifted_lane, closeInterval_shifted, shifted_modLane]
  split <;> rw [shifted_unmark, shifted_modLane]

end

/-! ### CHECK_STOP (R84, R126) -/

/-- What CHECK_STOP answers on an open lane: the states it found, over the checker stopped. -/
theorem exec_checkStop {s : State} {p : Port} {n : Lane} (h : LaneOpen s p n) :
    exec (.checkStop p.frame [laneCode n]) s = .next (replied p 2
      { status := .ok, code := 0x3B,
        fields := [laneCode n, checkStateCode (s.lane n).checker.state, yesNo ((s.lane n).timer.state == .run)] }
      (stopChecker s n)) := by
  rw [exec, execCheckStop, laneCommand_open h, settle_done, stopChecker_shifted, shifted_respond, State.shifted_lane]

/-- Settles O32: the close, if any, leaves the checker and the response for the stop to replace. -/
theorem checkStopEntersOff : Obligations.CheckStopEntersOff := by
  intro p n s closed h hclosed
  have hslot : SlotStep s closed ∧ IntervalStep s closed := by
    rw [hclosed]
    split
    · exact ⟨.closeAndStop s n .checkerStop, .closeAndStop s n .checkerStop⟩
    · exact ⟨.refl s, .refl s⟩
  obtain ⟨slot, timing⟩ := hslot
  have hstop : stopChecker s n =
      (closed.unmark (.checker n)).modLane n fun l => l.modChecker fun c => discardReference c .off := by
    rw [hclosed]
    rfl
  refine ⟨_, exec_checkStop h, ?_, fun m => ?_, fun q => ?_, ?_⟩
  · rw [replied_segs, hstop, State.modLane_segs, State.unmark_eq, slot.segs]
    rfl
  · rw [replied_lane, hstop, State.modLane_lane, State.unmark_lane, State.unmark_lane, ← (timing.lane n).checker]
    rfl
  · rw [replied_port, hstop, State.modLane_port, State.modLane_port, State.unmark_port, State.unmark_port,
      (slot.port p).response]
  · simp only [replied_store, replied_holders, replied_resetPhase, replied_freeCount, replied_pending, hstop,
      State.modLane_store, State.modLane_holders, State.modLane_resetPhase, State.modLane_freeCount,
      State.modLane_pending, State.unmark_store, State.unmark_holders, State.unmark_resetPhase, State.unmark_freeCount,
      State.unmark_pending, slot.store, slot.holders, slot.resetPhase, slot.freeCount, slot.pending, and_self]

end Sys2Proof.Machine
end

section
/-!
PROOF. One checker and one word (R76, R86, R87, R94, R98, R115): what the reference expects of the next word, what
`Handles` comes down to, and the words of VERIFY.
-/

namespace Sys2Proof.Machine

/-! ### The reference past a word (R86, R87) -/

section
variable {s : State} {n : Lane}

theorem ReferenceNext.advanceReference {pl : Plan} {sg : Segment} {pos q : Pos} (h : ReferenceNext pl sg pos q) :
    advanceReference pl sg pos = q := by
  rcases h with h | ⟨h, rfl⟩
  · rw [Machine.advanceReference, h.advance]
  · rw [Machine.advanceReference, h.advance]
    rfl

/-- The counted reference that the statements name is the one that the word is compared with. -/
theorem CountedReference.expected {ref mask : Word} {next : Checker} (h : CountedReference s n ref mask next) :
    expected s n = .ok { compare := some (ref, mask), advanced := next } := by
  rcases h with ⟨hm, hp, sg, q, hsg, hc, hq, rfl, rfl, rfl⟩ | ⟨hm, sg, o, invert, seed, hsg, hk, rfl, rfl, rfl⟩
  · simp only [Machine.expected, hm, hp, definedSegment_of_record hsg, hc, hq.advanceReference, if_true]
  · simp only [Machine.expected, hm, freeRunSegment, definedSegment_of_record hsg, hk]

theorem UncountedReference.expected {next : Checker} (h : UncountedReference s n next) :
    expected s n = .ok { compare := none, advanced := next } := by
  obtain ⟨hm, ⟨hp, rfl⟩ | ⟨hp, sg, q, hsg, hc, hq, rfl⟩⟩ := h
  · simp only [Machine.expected, hm, hp, if_false]
  · simp only [Machine.expected, hm, hp, definedSegment_of_record hsg, hc, hq.advanceReference, if_true,
      Bool.false_eq_true, if_false]

/-! ### A word handled (R76, R115) -/

/-- A word that arrives is a word delivered. -/
theorem arrives_eq (src : Source) (w : Word) (s : State) : arrives src w s = walkOutcome (deliver src w s) := by
  cases src <;> rfl

/-- What checker n does with a word, it does on its own and as the whole of the word's arrival. -/
theorem handles_of_receiveAt {w : Word} {t : State} (h : receiveAt s n w = .ok t) : Handles s n w (.next t) :=
  ⟨by rw [heard, h, walkOutcome], fun _ hsrc => by rw [arrives_eq, deliver_only hsrc, h, walkOutcome]⟩

theorem receiveAt_verify {x : Expected} (state : (s.lane n).checker.state = .verify) (hx : expected s n = .ok x)
    (w : Word) : receiveAt s n w = .ok (verifyWord s n x w) := by
  simp only [receiveAt, state, hx]

theorem receiveAt_locked {x : Expected} (state : (s.lane n).checker.state = .locked) (hx : expected s n = .ok x)
    (w : Word) : receiveAt s n w = .ok (lockedWord s n x w) := by
  simp only [receiveAt, state, hx]

end

/-! ### Run totals and events (R98, R111, R170) -/

/-- `s` with an event raised, if `due` says so. -/
def raisedIf (due : Bool) (e : Event) (s : State) : State := if due = true then withEvent e s else s

theorem raisedIf_setLane (due : Bool) (e : Event) (s : State) (n : Lane) (l : LaneState) :
    (raisedIf due e s).setLane n l = raisedIf due e (s.setLane n l) := by
  cases due <;> rfl

theorem raisedIf_lane (due : Bool) (e : Event) (s : State) (n : Lane) : (raisedIf due e s).lane n = s.lane n := by
  cases due <;> rfl

/-- A lane with new run totals, and the latch that an overflow of theirs sets (R111). -/
def LaneState.withRun (l : LaneState) (run : RunTotals × Bool) : LaneState :=
  { l with acc := { l.acc with run := run.1, runLatch := l.acc.runLatch || run.2 } }

theorem setRun_eq (s : State) (n : Lane) (run : RunTotals × Bool) : setRun s n run =
    raisedIf (run.2 && !(s.lane n).acc.runLatch) (.accumLimit n) (s.setLane n ((s.lane n).withRun run)) := rfl

theorem setLane_setLane (s : State) (n : Lane) (l k : LaneState) : (s.setLane n l).setLane n k = s.setLane n k :=
  modLane_modLane s n (fun _ => l) fun _ => k

theorem modLane_lane_self (s : State) (n : Lane) (f : LaneState → LaneState) : (s.modLane n f).lane n = f (s.lane n) := by
  rw [State.modLane_lane, if_pos rfl]

/-- New run totals amid changes of the same lane: ACCUM_LIMIT when a total passed its maximum under a clear latch. -/
theorem modLane_setRun_modLane (s : State) (n : Lane) (f g : LaneState → LaneState) (run : RunTotals × Bool) :
    (setRun (s.modLane n f) n run).modLane n g =
      raisedIf (run.2 && !(f (s.lane n)).acc.runLatch) (.accumLimit n)
        (s.setLane n (g ((f (s.lane n)).withRun run))) := by
  rw [setRun_eq, modLane_lane_self, State.modLane, raisedIf_lane, State.setLane_lane, if_pos rfl, raisedIf_setLane,
    setLane_setLane, State.modLane, setLane_setLane]

/-! ### The words of VERIFY (R94, R98) -/

/-- A lane with one gain more in its interval, when that counts (R98). -/
def LaneState.withGain (l : LaneState) : LaneState :=
  { l with acc := { l.acc with interval := { l.acc.interval with
    gains := if counting l then saturatingAdd l.acc.interval.gains 1 else l.acc.interval.gains } } }

theorem withGain_eq (l : LaneState) : l.withGain =
    if counting l then
      l.modAcc fun a => { a with interval := { a.interval with gains := saturatingAdd a.interval.gains 1 } }
    else l := by
  unfold LaneState.withGain
  split <;> rfl

/-- The gain of lock, as the statements name it. -/
theorem gainLock_eq {s : State} {n : Lane} {next : Checker} (config : next.config = (s.lane n).checker.config) :
    gainLock s n next = lockGained n next s := by
  have hlane : (s.modLane n fun l => l.modChecker fun _ =>
      { next with state := .locked, progress := 0, slip := 0 }).lane n =
        { s.lane n with checker := { next with state := .locked, progress := 0, slip := 0 } } := by
    rw [State.modLane_lane, if_pos rfl, LaneState.modChecker]
  have hgain : gainLock s n next = withEvent (.lockGained n)
      ((setRun (s.modLane n fun l =>
        { l with checker := { next with state := .locked, progress := 0, slip := 0 } }) n
        ((s.lane n).acc.run.addGain (s.lane n).checker.config.overflow)).modLane n LaneState.withGain) := by
    rw [gainLock, hlane, ← config, funext withGain_eq]
    rfl
  rw [hgain, modLane_setRun_modLane]
  rfl

/-- Settles O34: the reference gives the comparison, and the comparison the case of `verifyWord`. -/
theorem verifyCountsCleanWords : Obligations.VerifyCountsCleanWords := by
  intro n w s state
  refine ⟨fun next href => handles_of_receiveAt (receiveAt_verify state href.expected w), fun ref mask next href => ?_⟩
  obtain ⟨config, -, progress, -⟩ := expected_config href.expected
  have handles : ∀ {t}, verifyWord s n { compare := some (ref, mask), advanced := next } w = t →
      Handles s n w (.next t) := fun ht => handles_of_receiveAt (ht ▸ receiveAt_verify state href.expected w)
  simp only at config progress
  refine ⟨fun errored => handles ?_, fun clean below => handles ?_, fun clean last => handles ?_⟩
  · rw [verifyWord]
    exact if_neg errored
  · rw [verifyWord]
    dsimp only
    rw [erroredBits, if_pos clean, config, progress, if_pos below]
    rfl
  · rw [verifyWord]
    dsimp only
    rw [erroredBits, if_pos clean, config, progress, if_neg (Nat.not_lt.mpr last), gainLock_eq config]

end Sys2Proof.Machine
end

section
/-!
PROOF. The words of LOCKED (R96, R97, R101 to R106, R111, R128, R130 to R132): the counts of a word, its unit, and the
loss of lock, each as the statements name it.
-/

namespace Sys2Proof.Machine

/-! ### The counts of a word (R102 steps 1 and 2) -/

/-- The first-error offset as the statements name it (R106). -/
theorem nextOffset_eq (mode : OverflowMode) (a : IntervalAcc) (e : Nat) (passed : Bool) :
    nextOffset a e (passed && mode == .wrap) = offsetAfter mode a e passed := by
  have hopen : (decide (0 < e) && offsetOpen a) = true ↔ 0 < e ∧ a.words.value = 0 ∧ a.words.tally = 0 ∧
      a.compared.tally = 0 ∧ a.compared.value ≠ BitVec.allOnes 48 := by
    simp only [offsetOpen, Bool.and_eq_true, decide_eq_true_eq, beq_iff_eq, bne_iff_ne, and_assoc]
  have hwrapped : (passed && mode == .wrap) = true ↔ mode = .wrap ∧ passed = true := by
    simp only [Bool.and_eq_true, beq_iff_eq, and_comm]
  simp only [nextOffset, offsetAfter, hopen, hwrapped]

/-- A lane with new interval counts, and the latch that an overflow of theirs sets (R111). -/
def LaneState.withInterval (l : LaneState) (a : IntervalAcc × Bool) : LaneState :=
  { l with acc := { l.acc with interval := a.1, intervalLatch := l.acc.intervalLatch || a.2 } }

theorem setInterval_eq (s : State) (n : Lane) (a : IntervalAcc × Bool) : setInterval s n a =
    raisedIf (a.2 && !(s.lane n).acc.intervalLatch) (.accumLimit n) (s.setLane n ((s.lane n).withInterval a)) := rfl

/-- An event that is pending is not raised twice. -/
theorem withEvent_withEvent (e : Event) (s : State) : withEvent e (withEvent e s) = withEvent e s := by
  simp only [withEvent, State.modPorts, BitVec.or_assoc, BitVec.or_self]

theorem raisedIf_raisedIf (a b : Bool) (e : Event) (s : State) :
    raisedIf b e (raisedIf a e s) = raisedIf (a || b) e s := by
  cases a <;> cases b
  · rfl
  · rfl
  · rfl
  · exact withEvent_withEvent e s

/-- The counts handed to the run and to the interval, as the statements name them. -/
theorem accumulate_eq (n : Lane) (c e : Nat) (s : State) :
    accumulateInterval (accumulateRun s n c e) n c e = accumulated n c e s := by
  have hlane : (accumulateRun s n c e).lane n =
      (s.lane n).withRun ((s.lane n).acc.run.addWord (s.lane n).checker.config.overflow c e) := by
    rw [accumulateRun, setRun_lane, if_pos rfl, LaneState.withRun]
  have hcount : counting ((accumulateRun s n c e).lane n) = counting (s.lane n) := by
    rw [hlane]
    rfl
  rw [accumulateInterval, hcount]
  unfold accumulated
  cases hc : counting (s.lane n) with
  | true =>
    rw [if_pos rfl, setInterval_eq, hlane, accumulateRun, setRun_eq, raisedIf_setLane, setLane_setLane,
      raisedIf_raisedIf]
    simp only [← nextOffset_eq, hc, Bool.true_and, if_true]
    rfl
  | false =>
    rw [if_neg Bool.false_ne_true, accumulateRun, setRun_eq]
    simp only [hc, Bool.false_and, Bool.or_false, Bool.false_eq_true, if_false]
    rfl

/-! ### Slices and units (R128, R130, R131, R133, R134) -/

/-- The open slice put in its class, as the statements name it. -/
theorem classifySlice_eq (l : LaneState) :
    classifySlice l = { l with timer := { l.timer with progress := classed l } } := by
  have hclass : sliceClass l =
      if l.timer.progress.sliceMark then .unavailable
      else if exceeds l.timer.config.severe l.acc.interval.sliceErrored.toNat l.acc.interval.sliceCompared.toNat then
        .severe
      else if 0 < l.acc.interval.sliceErrored.toNat then .errored
      else .clean := rfl
  simp only [classifySlice, classed, LaneState.modProgress, hclass, heldBits]
  cases hm : l.timer.progress.sliceMark
  · cases hs : exceeds l.timer.config.severe l.acc.interval.sliceErrored.toNat l.acc.interval.sliceCompared.toNat
    · by_cases he : 0 < l.acc.interval.sliceErrored.toNat
      · simp [he, Nat.ne_of_gt he, hm, countClass, SliceClass.offered]
      · simp [Nat.eq_zero_of_not_pos he, hm, countClass, SliceClass.offered]
    · simp [hm, countClass, SliceClass.offered]
  · simp [hm, countClass, SliceClass.offered]

theorem openNextSlice_classifySlice (l : LaneState) : openNextSlice (classifySlice l) = nextSlice l := by
  rw [classifySlice_eq]
  rfl

/-- A unit of a running timer, as the statements name it. -/
theorem sliceCloseIfDue_withUnit {l : LaneState} (run : l.timer.state = .run) :
    sliceCloseIfDue l.withUnit = unitTaken l := by
  have hstate : l.withUnit.timer.state = .run := run
  simp only [sliceCloseIfDue, unitTaken, hstate, beq_self_eq_true, Bool.true_and, beq_iff_eq,
    openNextSlice_classifySlice]
  rfl

/-- The expiry of a running timer, as the statements name it (R130). -/
theorem intervalExpiryIfDue_eq {s : State} {n : Lane} (run : (s.lane n).timer.state = .run) :
    intervalExpiryIfDue s n =
      if (s.lane n).timer.progress.elapsed = (s.lane n).timer.config.length then expired n s else s := by
  have hmode := congrArg TimerConfig.mode (closeInterval_config s n .expiry none)
  simp only [intervalExpiryIfDue, run, beq_self_eq_true, Bool.true_and, beq_iff_eq]
  split
  · unfold expired
    cases hm : (s.lane n).timer.config.mode with
    | once =>
      exact modLane_congr (by rw [hmode, hm]; rfl)
    | repeating =>
      exact modLane_congr (by rw [hmode, hm]; rfl)
  · rfl

/-- A unit of a timer in RUN, as the statements name it (R127, R128). -/
theorem countUnit_eq {s : State} {n : Lane} (run : (s.lane n).timer.state = .run) :
    countUnit s n = unitCounted n s := by
  have htaken : (s.modLane n fun l => sliceCloseIfDue l.withUnit) = s.modLane n unitTaken :=
    modLane_congr (sliceCloseIfDue_withUnit run)
  have hlane : (s.modLane n unitTaken).lane n = sliceCloseIfDue (s.lane n).withUnit := by
    rw [modLane_lane_self, sliceCloseIfDue_withUnit run]
  obtain ⟨hconfig, hstate, -, helapsed, -⟩ := sliceCloseIfDue_timer (s.lane n).withUnit rfl
  rw [← hlane] at hconfig hstate helapsed
  have hunit : countUnit s n = intervalExpiryIfDue (s.modLane n fun l => sliceCloseIfDue l.withUnit) n := rfl
  rw [hunit, htaken, intervalExpiryIfDue_eq (hstate.trans run), hconfig, helapsed]
  rfl

/-- The unit of a compared word, as the statements name it (R128). -/
theorem accumulatedUnit_eq (s : State) (n : Lane) : accumulatedUnit s n = wordUnit n s := by
  simp only [accumulatedUnit, wordUnit, Bool.and_eq_true, beq_iff_eq]
  split
  · rename_i h
    exact countUnit_eq (run_of_counting h.1)
  · rfl

/-! ### The slip score (R96, R97) -/

section
variable {s : State} {n : Lane}

/-- A counted word of LOCKED: its counts and its unit, and then the slip score. -/
theorem lockedWord_eq (w ref mask : Word) (next : Checker) :
    lockedWord s n { compare := some (ref, mask), advanced := next } w =
      moveSlip (wordUnit n (accumulated n (ones mask) (erroredBits w ref mask) s)) n next (erroredBits w ref mask) := by
  simp only [lockedWord, accumulate_eq, accumulatedUnit_eq]

/-- The counts of a word and its unit move no checker. -/
theorem wordUnit_accumulated_checker (c e : Nat) :
    ((wordUnit n (accumulated n c e s)).lane n).checker = (s.lane n).checker := by
  rw [← accumulate_eq, ← accumulatedUnit_eq]
  exact ((IntervalStep.accumulate s n c e).lane n).checker

theorem nextSlip_kept {c : Checker} {e : Nat} {slip : BitVec 6}
    (below : 0 < e → c.slip.toNat + 1 ≤ c.config.threshold.toNat)
    (hslip : slip.toNat = if 0 < e then c.slip.toNat + 1 else c.slip.toNat - 1) : nextSlip c e = some slip := by
  have hlt := slip.isLt
  unfold nextSlip
  by_cases he : e = 0
  · subst he
    rw [if_pos rfl]
    simp only [Nat.lt_irrefl, if_false] at hslip
    split
    · rename_i h0
      rw [h0] at hslip
      exact congrArg some (BitVec.eq_of_toNat_eq hslip.symm)
    · exact congrArg some (by bv_omega)
  · have hpos := Nat.pos_of_ne_zero he
    rw [if_pos hpos] at hslip
    rw [if_neg he, if_neg (Nat.not_lt.mpr (below hpos))]
    exact congrArg some (by bv_omega)

theorem nextSlip_lost {c : Checker} {e : Nat} (errored : 0 < e) (past : c.config.threshold.toNat < c.slip.toNat + 1) :
    nextSlip c e = none := by
  rw [nextSlip, if_neg (Nat.ne_of_gt errored), if_pos past]

end

/-- Settles O35: the counts and the unit leave the checker, whose slip score then moves. -/
theorem lockedWordIsAccumulated : Obligations.LockedWordIsAccumulated := by
  intro n w s state
  refine ⟨fun next href => handles_of_receiveAt (receiveAt_locked state href.expected w), ?_⟩
  rintro ref mask next e slip href rfl below hslip
  refine handles_of_receiveAt ((receiveAt_locked state href.expected w).trans (congrArg Except.ok ?_))
  rw [lockedWord_eq, moveSlip, wordUnit_accumulated_checker]
  rw [erroredBits, nextSlip_kept below hslip]
  rfl

/-! ### The close of a lane's own interval (R135, R136) -/

theorem pushRecord_lane_self (s : State) (n : Lane) (r : IntervalRecord) :
    ∃ ring, (pushRecord s n r).lane n = { s.lane n with ring := ring } := by
  have hring : ∀ ring, (s.modLane n fun l => { l with ring := ring }).lane n = { s.lane n with ring := ring } :=
    fun _ => modLane_lane_self ..
  simp only [pushRecord]
  split
  · split <;> exact ⟨_, hring _⟩
  · exact ⟨_, hring _⟩

/-- The classes of an interval's slices go to its record; the close clears them. -/
theorem finishClose_classifyOpenSlice (cause : CloseCause) (made : Bool) (l : LaneState) (ring : Ring) :
    finishClose cause made { classifyOpenSlice l with ring := ring } =
      { finishClose cause made l with ring := ring } := by
  unfold classifyOpenSlice
  split <;> rfl

/-- What a close leaves of its own lane: the interval's counts and progress cleared, the close noted, and otherwise at
most the ring and an offer to itself. -/
theorem closeInterval_lane_self (s : State) (n : Lane) (cause : CloseCause) (sender : Option Port) :
    ∃ made ring offer, (closeInterval s n cause sender).lane n =
      { finishClose cause made (s.lane n) with
        ring := ring
        timer := { (finishClose cause made (s.lane n)).timer with chainOffer := offer } } := by
  have offered : ∀ {t : State} {made ring}, t.lane n = { finishClose cause made (s.lane n) with ring := ring } →
      ∃ offer, (offerClose t n cause sender).lane n =
        { finishClose cause made (s.lane n) with
          ring := ring
          timer := { (finishClose cause made (s.lane n)).timer with chainOffer := offer } } := fun ht => by
    rw [offerClose_lane, ht]
    split
    · rcases takeOffer_cases n sender _ with h | ⟨-, -, h⟩ <;> exact ⟨_, h⟩
    · exact ⟨_, rfl⟩
  unfold closeInterval
  split
  · obtain ⟨ring, hring⟩ := pushRecord_lane_self (s.setLane n (classifyOpenSlice (s.lane n))) n
      (buildRecord n cause (classifyOpenSlice (s.lane n)))
    refine ⟨true, ring, offered ?_⟩
    rw [State.setLane_lane, if_pos rfl] at hring
    rw [closeWithRecord, modLane_lane_self, ← finishClose_classifyOpenSlice, ← hring]
    split <;> rfl
  · exact ⟨false, (s.lane n).ring, offered (modLane_lane_self ..)⟩

/-! ### What a unit leaves of the run totals (R103) -/

section
variable (s : State) (n : Lane)

theorem closeInterval_run (cause : CloseCause) (sender : Option Port) :
    ((closeInterval s n cause sender).lane n).acc.run = (s.lane n).acc.run := by
  obtain ⟨made, ring, offer, h⟩ := closeInterval_lane_self s n cause sender
  rw [h]
  rfl

theorem expired_run : ((expired n s).lane n).acc.run = (s.lane n).acc.run := by
  rw [expired, modLane_lane_self]
  split <;> exact closeInterval_run s n .expiry none

theorem unitTaken_run (l : LaneState) : (unitTaken l).acc.run = l.acc.run := by
  simp only [unitTaken]
  split <;> rfl

theorem wordUnit_run : ((wordUnit n s).lane n).acc.run = (s.lane n).acc.run := by
  have htaken : ((s.modLane n unitTaken).lane n).acc.run = (s.lane n).acc.run := by
    rw [modLane_lane_self, unitTaken_run]
  unfold wordUnit unitCounted
  split
  · split
    · rw [expired_run, htaken]
    · exact htaken
  · rfl

theorem accumulated_run (c e : Nat) : ((accumulated n c e s).lane n).acc.run =
    ((s.lane n).acc.run.addWord (s.lane n).checker.config.overflow c e).1 := by
  have hrun : ((accumulateRun s n c e).lane n).acc.run =
      ((s.lane n).acc.run.addWord (s.lane n).checker.config.overflow c e).1 := by
    rw [accumulateRun, setRun_lane, if_pos rfl]
  rw [← accumulate_eq, accumulateInterval, ← hrun]
  split
  · rw [setInterval_lane, if_pos rfl]
  · rfl

end

/-! ### The loss of lock (R97, R98, R132) -/

/-- A lane with one loss more in its interval, and the open slice marked, when that counts (R97, R132). -/
def LaneState.withLoss (l : LaneState) : LaneState :=
  { l with
    acc := { l.acc with interval := { l.acc.interval with
      losses := if counting l then saturatingAdd l.acc.interval.losses 1 else l.acc.interval.losses } }
    timer := { l.timer with progress := { l.timer.progress with
      sliceMark := l.timer.progress.sliceMark || counting l } } }

theorem withLoss_eq (l : LaneState) : l.withLoss =
    if counting l then
      (l.modAcc fun a => { a with interval := { a.interval with losses := saturatingAdd a.interval.losses 1 } })
        |>.modProgress fun q => { q with sliceMark := true }
    else l := by
  unfold LaneState.withLoss
  cases hc : counting l
  · simp only [Bool.or_false, Bool.false_eq_true, if_false]
  · simp only [Bool.or_true, if_true]
    rfl

section
variable (n : Lane) (s : State)

/-- The loss of lock, as the statements name it. -/
theorem loseLock_eq : loseLock s n = lockLost n s := by
  have hlane : (s.modLane n fun l => l.modChecker fun c => discardReference c .search).lane n =
      { s.lane n with checker := searching (s.lane n).checker } := by
    rw [modLane_lane_self]
    rfl
  have hloss : loseLock s n = withEvent (.lockLost n)
      ((setRun (s.modLane n fun l => { l with checker := searching l.checker }) n
        ((s.lane n).acc.run.addLoss (s.lane n).checker.config.overflow)).modLane n LaneState.withLoss) := by
    rw [loseLock, hlane, funext withLoss_eq]
    rfl
  rw [hloss, modLane_setRun_modLane]
  rfl

/-- What the loss of lock leaves of its lane. -/
theorem lockLost_lane : (lockLost n s).lane n =
    LaneState.withLoss (({ s.lane n with checker := searching (s.lane n).checker } : LaneState).withRun
      ((s.lane n).acc.run.addLoss (s.lane n).checker.config.overflow)) := by
  have h : lockLost n s = withEvent (.lockLost n) (raisedIf
      (((s.lane n).acc.run.addLoss (s.lane n).checker.config.overflow).2 && !(s.lane n).acc.runLatch) (.accumLimit n)
      (s.setLane n (LaneState.withLoss (({ s.lane n with checker := searching (s.lane n).checker } : LaneState).withRun
        ((s.lane n).acc.run.addLoss (s.lane n).checker.config.overflow))))) := rfl
  rw [h]
  exact (raisedIf_lane ..).trans (by rw [State.setLane_lane, if_pos rfl])

theorem lockLost_pending (p : Port) :
    ((lockLost n s).port p).view.pending.getLsbD (6 * n.val + 1) = true :=
  State.raise_isPending _ (.lockLost n) p (by simp only [Event.bit]; omega)

end

/-- Settles O37: the counts and the unit come first and leave the checker and the run totals, and the loss does the
rest. -/
theorem lossOfLockReturnsToSearch : Obligations.LossOfLockReturnsToSearch := by
  rintro n w ref mask s t next e state href rfl errored past rfl
  set e := ones ((w ^^^ ref) &&& mask) with he
  have hchecker := wordUnit_accumulated_checker (s := s) (n := n) (ones mask) e
  have hrun := (wordUnit_run (accumulated n (ones mask) e s) n).trans (accumulated_run s n (ones mask) e)
  have hlocked : lockedWord s n { compare := some (ref, mask), advanced := next } w =
      lockLost n (wordUnit n (accumulated n (ones mask) e s)) := by
    rw [lockedWord_eq, moveSlip, erroredBits, ← he, hchecker, nextSlip_lost errored past, loseLock_eq]
  have hword : erroredWord e = 1 := if_pos errored
  refine ⟨handles_of_receiveAt ((receiveAt_locked state href.expected w).trans (congrArg _ hlocked)), ?_,
    lockLost_pending n _, ?_⟩ <;> rw [lockLost_lane]
  · exact congrArg searching hchecker
  · simp only [LaneState.withLoss, LaneState.withRun, RunTotals.addLoss, hrun, hchecker, RunTotals.addWord, hword,
      and_self]

end Sys2Proof.Machine
end

section
/-!
PROOF. The words of SEARCH (R89, R92): the self-synchronisation test read as the recurrence over the received word, and
the two tests of a word.
-/

namespace Sys2Proof.Machine

/-! ### Self-synchronisation (R92) -/

/-- The bits of a received word, bit 63 first, are not 0 throughout the first k and then follow the recurrence. -/
def FollowsRecurrence (o : PrbsOrder) (c : Word) : Prop :=
  (∃ j, j < o.k ∧ c.getLsbD (63 - j) = true) ∧
    ∀ j, o.k ≤ j → j < 64 → c.getLsbD (63 - j) = (c.getLsbD (63 - (j - o.k)) ^^ c.getLsbD (63 - (j - o.a)))

/-- The recurrence state that the first k bits of a received word load. -/
def loadedState (o : PrbsOrder) (c : Word) : BitVec 32 := (c >>> (64 - o.k)).setWidth 32

section
variable (o : PrbsOrder) (c : Word)

theorem loadedState_getLsbD {j : Nat} (hj : j < 32) : (loadedState o c).getLsbD j = c.getLsbD (64 - o.k + j) := by
  rw [loadedState, BitVec.getLsbD_setWidth, BitVec.getLsbD_ushiftRight, decide_eq_true hj, Bool.true_and]

theorem loadedState_ne_zero : loadedState o c ≠ 0 ↔ ∃ j, j < o.k ∧ c.getLsbD (63 - j) = true := by
  have hk := o.k_lt
  constructor
  · intro hne
    by_contra hnone
    refine hne (BitVec.eq_of_getLsbD_eq fun j hj => ?_)
    rw [loadedState_getLsbD o c hj]
    refine Eq.trans ?_ BitVec.getLsbD_zero.symm
    by_cases hjk : j < o.k
    · have he : 64 - o.k + j = 63 - (o.k - 1 - j) := by omega
      rw [he]
      exact Bool.eq_false_iff.mpr fun hbit => hnone ⟨o.k - 1 - j, by omega, hbit⟩
    · exact BitVec.getLsbD_of_ge c _ (by omega)
  · rintro ⟨j, hj, hbit⟩ hzero
    have he : 63 - j = 64 - o.k + (o.k - 1 - j) := by omega
    rw [he, ← loadedState_getLsbD o c (by omega), hzero] at hbit
    exact absurd (hbit.symm.trans BitVec.getLsbD_zero) (by decide)

/-- The sequence from the loaded state begins with the first k bits of the received word. -/
theorem prbsStreamBit_loadedState {i : Nat} (hi : i < o.k) :
    prbsStreamBit o (loadedState o c) i = c.getLsbD (63 - i) := by
  have hk := o.k_lt
  have he : 64 - o.k + (o.k - 1 - i) = 63 - i := by omega
  rw [prbsStreamBit, if_pos hi, loadedState_getLsbD o c (by omega), he]

/-- The test of R92: the rest of the word is predicted when it carries on the sequence. -/
theorem predicted_iff_stream :
    (prbsTake o (64 - o.k) (loadedState o c) 0).2 = c &&& BitVec.ofNat 64 (2 ^ (64 - o.k) - 1) ↔
      ∀ i, o.k ≤ i → i < 64 → prbsStreamBit o (loadedState o c) i = c.getLsbD (63 - i) := by
  have hbit : ∀ j, j < 64 - o.k →
      (prbsTake o (64 - o.k) (loadedState o c) 0).2.getLsbD j = prbsStreamBit o (loadedState o c) (63 - j) :=
    fun j hj => by
      have he : 63 - j = o.k + (64 - o.k - 1 - j) := by omega
      rw [prbsTake_word o _ _ _ (by omega), if_pos hj, he, prbsStreamBit_formed]
  have hmask : ∀ j, j < 64 → (c &&& BitVec.ofNat 64 (2 ^ (64 - o.k) - 1)).getLsbD j =
      (c.getLsbD j && decide (j < 64 - o.k)) := fun j hj => by
    rw [BitVec.getLsbD_and, BitVec.getLsbD_ofNat, Nat.testBit_two_pow_sub_one, decide_eq_true hj, Bool.true_and]
  constructor
  · intro h i hi hi64
    have hj : 63 - i < 64 - o.k := by omega
    have he : 63 - (63 - i) = i := by omega
    have hi' := hbit (63 - i) hj
    rw [h, hmask _ (by omega), decide_eq_true hj, Bool.and_true, he] at hi'
    exact hi'.symm
  · intro h
    refine BitVec.eq_of_getLsbD_eq fun j hj => ?_
    rw [hmask j hj]
    by_cases hlow : j < 64 - o.k
    · have he : 63 - (63 - j) = j := by omega
      rw [hbit j hlow, h (63 - j) (by omega) (by omega), he, decide_eq_true hlow, Bool.and_true]
    · rw [prbsTake_word o _ _ _ hj, if_neg hlow, decide_eq_false hlow, Bool.and_false]
      exact BitVec.getLsbD_zero

/-- A word carries on the sequence of its first k bits when it follows the recurrence. -/
theorem stream_iff_recurrence :
    (∀ i, o.k ≤ i → i < 64 → prbsStreamBit o (loadedState o c) i = c.getLsbD (63 - i)) ↔
      ∀ j, o.k ≤ j → j < 64 → c.getLsbD (63 - j) = (c.getLsbD (63 - (j - o.k)) ^^ c.getLsbD (63 - (j - o.a))) := by
  obtain ⟨ha, hak⟩ := o.a_bounds
  have hrec : ∀ j, o.k ≤ j → prbsStreamBit o (loadedState o c) j =
      (prbsStreamBit o (loadedState o c) (j - o.k) ^^ prbsStreamBit o (loadedState o c) (j - o.a)) := fun j hj => by
    have h := prbsStreamBit_recurrence o (loadedState o c) (j - o.k)
    rwa [Nat.sub_add_cancel hj] at h
  constructor
  · intro h j hj hj64
    have hall : ∀ i, i < 64 → prbsStreamBit o (loadedState o c) i = c.getLsbD (63 - i) := fun i hi => by
      rcases Nat.lt_or_ge i o.k with hik | hik
      · exact prbsStreamBit_loadedState o c hik
      · exact h i hik hi
    rw [← hall j hj64, hrec j hj, hall _ (by omega), hall _ (by omega)]
  · intro h i
    induction i using Nat.strong_induction_on with
    | _ i ih =>
      intro hi hi64
      have hbefore : ∀ m, m < i → prbsStreamBit o (loadedState o c) m = c.getLsbD (63 - m) := fun m hm => by
        rcases Nat.lt_or_ge m o.k with hmk | hmk
        · exact prbsStreamBit_loadedState o c hmk
        · exact ih m hm hmk (hm.trans hi64)
      rw [hrec i hi, hbefore _ (by omega), hbefore _ (by omega), h i hi hi64]

end

/-- The test of R92 as the recurrence over the received word. -/
theorem predicted_iff_recurrence (o : PrbsOrder) (c : Word) :
    (loadedState o c ≠ 0 ∧
      (prbsTake o (64 - o.k) (loadedState o c) 0).2 = c &&& BitVec.ofNat 64 (2 ^ (64 - o.k) - 1)) ↔
      FollowsRecurrence o c := by
  rw [FollowsRecurrence, loadedState_ne_zero, predicted_iff_stream, stream_iff_recurrence]

theorem selfSync_eq (o : PrbsOrder) (invert : Bool) (w : Word) : selfSync o invert w =
    if loadedState o (inverted invert w) = 0 then none
    else if (prbsTake o (64 - o.k) (loadedState o (inverted invert w)) 0).2 =
        inverted invert w &&& BitVec.ofNat 64 (2 ^ (64 - o.k) - 1) then
      some (lowBits o.k ((inverted invert w).setWidth 32))
    else none := rfl

theorem selfSync_passes {o : PrbsOrder} {invert : Bool} {w : Word} (h : FollowsRecurrence o (inverted invert w)) :
    selfSync o invert w = some (lowBits o.k ((inverted invert w).setWidth 32)) := by
  obtain ⟨hne, hrest⟩ := (predicted_iff_recurrence o _).mpr h
  rw [selfSync_eq, if_neg hne, if_pos hrest]

theorem selfSync_fails {o : PrbsOrder} {invert : Bool} {w : Word} (h : ¬ FollowsRecurrence o (inverted invert w)) :
    selfSync o invert w = none := by
  rw [← predicted_iff_recurrence, not_and] at h
  rw [selfSync_eq]
  split
  · rfl
  · rw [if_neg (h ‹_›)]

/-! ### A word tested (R89, R92) -/

section
variable {s : State} {n : Lane} {sg : Segment}

theorem receiveAt_search (state : (s.lane n).checker.state = .search) (w : Word) :
    receiveAt s n w = searchWord s n w := by
  simp only [receiveAt, state]

/-- A word tested against the anchor word under the match mask (R89). -/
theorem searchWord_sequence (mode : (s.lane n).checker.mode = .sequence)
    (record : s.record (checkerPlan s n).anchor = some sg) {q : Pos}
    (next : ReferenceNext (checkerPlan s n) sg (anchorPos (checkerPlan s n)) q) (w : Word) :
    searchWord s n w = .ok
      (if w &&& matchMask sg =
          formWord s.store sg (checkerPlan s n).passStep (anchorPos (checkerPlan s n)) &&& matchMask sg then
        s.modLane n fun l => { l with checker := { l.checker with state := .verify, progress := 0, pos := q } }
      else s) := by
  simp only [searchWord, mode, definedSegment_of_record record, next.advanceReference, anchorMatches, beq_iff_eq]
  rfl

/-- A word tested by the recurrence (R92). -/
theorem searchWord_freeRun {o : PrbsOrder} {invert : Bool} {seed : BitVec 32}
    (mode : (s.lane n).checker.mode = .freeRun) (record : s.record (checkerPlan s n).first = some sg)
    (kind : sg.kind = .prbs o invert seed) (w : Word) :
    searchWord s n w = .ok ((selfSync o invert w).elim s fun st => s.modLane n fun l =>
      { l with checker := enterVerify l.checker (passStart (checkerPlan s n).first 1 0) st }) := by
  simp only [searchWord, mode, freeRunSegment, definedSegment_of_record record, kind]
  cases selfSync o invert w <;> rfl

theorem inverted_eq (invert : Bool) (w : Word) : inverted invert w = if invert then ~~~w else w := rfl

end

end Sys2Proof.Machine
end

section
/-!
PROOF. What a word at one checker leaves of the other lanes and of the ports (`BlockStep`): at most offers to the timers
that wait on its lane, its lane's six events and its result cursors (R76, R115, R124, R152, R182).
-/

namespace Sys2Proof.Machine

/-- What a word at checker m leaves of the other lanes and of both ports. -/
structure BlockStep (m : Lane) (s t : State) : Prop where
  lane : ∀ n, n ≠ m → t.lane n = s.lane n ∨ t.lane n = takeOffer m none (s.lane n)
  flags : ∀ (p : Port) (k : Nat), ¬ (6 * m.val ≤ k ∧ k < 6 * m.val + 6) →
    (t.port p).view.pending.getLsbD k = (s.port p).view.pending.getLsbD k
  results : ∀ (p : Port) (n : Lane), n ≠ m → (t.port p).results[n] = (s.port p).results[n]

/-- An offer of no port comes once. -/
theorem takeOffer_takeOffer (m : Lane) (l : LaneState) :
    takeOffer m none (takeOffer m none l) = takeOffer m none l := by
  rcases takeOffer_cases m none l with h | ⟨wait, chain, h⟩
  · rw [h, h]
  · rw [h]
    simp only [takeOffer, wait, chain, beq_self_eq_true, Bool.and_self, if_true, ChainOffer.join, Bool.or_assoc]
    rfl

theorem BlockStep.refl (m : Lane) (s : State) : BlockStep m s s :=
  ⟨fun _ _ => .inl rfl, fun _ _ _ => rfl, fun _ _ _ => rfl⟩

theorem BlockStep.trans {m : Lane} {a b c : State} (h : BlockStep m a b) (g : BlockStep m b c) : BlockStep m a c where
  lane n hn := by
    rcases h.lane n hn with hl | hl <;> rcases g.lane n hn with gl | gl <;> rw [gl, hl]
    · exact .inl rfl
    · exact .inr rfl
    · exact .inr rfl
    · exact .inr (takeOffer_takeOffer ..)
  flags p k hk := (g.flags p k hk).trans (h.flags p k hk)
  results p n hn := (g.results p n hn).trans (h.results p n hn)

section
variable (s : State) (m : Lane)

theorem BlockStep.modLane (f : LaneState → LaneState) : BlockStep m s (s.modLane m f) :=
  ⟨fun _ hn => .inl (modLane_lane_ne hn ..), fun _ _ _ => by rw [State.modLane_port],
    fun _ _ _ => by rw [State.modLane_port]⟩

theorem BlockStep.setLane (l : LaneState) : BlockStep m s (s.setLane m l) := .modLane s m fun _ => l

theorem BlockStep.raise {e : Event} (he : 6 * m.val ≤ e.bit ∧ e.bit < 6 * m.val + 6) : BlockStep m s (s.raise e) where
  lane _ _ := .inl rfl
  flags p k hk := by
    have hflag : e.flag.getLsbD k = false := Bool.eq_false_iff.mpr fun h => hk (Event.flag_getLsbD h ▸ he)
    rw [State.raise_port, BitVec.getLsbD_or, hflag, Bool.or_false]
  results p n _ := by rw [State.raise_port]

theorem BlockStep.raisedIf (due : Bool) {e : Event} (he : 6 * m.val ≤ e.bit ∧ e.bit < 6 * m.val + 6) :
    BlockStep m s (raisedIf due e s) := by
  cases due
  · exact .refl m s
  · exact .raise s m he

theorem BlockStep.setRun (run : RunTotals × Bool) : BlockStep m s (setRun s m run) := by
  rw [setRun_eq]
  exact (BlockStep.setLane s m _).trans (.raisedIf _ m _ (by simp only [Event.bit]; omega))

theorem BlockStep.setInterval (a : IntervalAcc × Bool) : BlockStep m s (setInterval s m a) := by
  rw [setInterval_eq]
  exact (BlockStep.setLane s m _).trans (.raisedIf _ m _ (by simp only [Event.bit]; omega))

/-! ### Closes and units -/

theorem BlockStep.closeInterval (cause : CloseCause) : BlockStep m s (closeInterval s m cause none) where
  lane n hn := by
    rw [closeInterval_lane_ne hn]
    split
    · exact .inr rfl
    · exact .inl rfl
  flags p k hk := by
    have hkept := CloseKept.closeInterval s m cause none p
    refine Bool.eq_iff_iff.mpr ⟨fun h => ?_, hkept.raised k⟩
    rcases hkept.flags k h with h | h
    · exact h
    · exact absurd (by omega) hk
  results p n hn := (CloseKept.closeInterval s m cause none p).results n hn

theorem BlockStep.intervalExpiryIfDue : BlockStep m s (intervalExpiryIfDue s m) := by
  simp only [Machine.intervalExpiryIfDue]
  split
  · split
    · exact (BlockStep.closeInterval s m .expiry).trans (.modLane _ m _)
    · exact (BlockStep.closeInterval s m .expiry).trans (.modLane _ m _)
  · exact .refl m s

theorem BlockStep.countUnit : BlockStep m s (countUnit s m) :=
  (BlockStep.modLane s m fun l => Machine.sliceCloseIfDue l.withUnit).trans (.intervalExpiryIfDue _ m)

/-! ### Words -/

theorem BlockStep.gainLock (c : Checker) : BlockStep m s (gainLock s m c) := by
  simp only [Machine.gainLock]
  refine BlockStep.trans ?_ (.raise _ m (by simp only [Event.bit]; omega))
  exact ((BlockStep.modLane s m _).trans (.setRun ..)).trans (.modLane ..)

theorem BlockStep.loseLock : BlockStep m s (loseLock s m) := by
  simp only [Machine.loseLock]
  refine BlockStep.trans ?_ (.raise _ m (by simp only [Event.bit]; omega))
  exact ((BlockStep.modLane s m _).trans (.setRun ..)).trans (.modLane ..)

theorem BlockStep.verifyWord (x : Expected) (w : Word) : BlockStep m s (verifyWord s m x w) := by
  unfold Machine.verifyWord
  split
  · exact .modLane ..
  · split
    · split
      · exact .modLane ..
      · exact .gainLock ..
    · exact .modLane ..

theorem BlockStep.accumulate (c e : Nat) :
    BlockStep m s (accumulatedUnit (accumulateInterval (accumulateRun s m c e) m c e) m) := by
  have hinterval : ∀ u, BlockStep m u (accumulateInterval u m c e) := fun u => by
    unfold accumulateInterval
    split
    · exact .setInterval ..
    · exact .refl ..
  have hunit : ∀ u, BlockStep m u (accumulatedUnit u m) := fun u => by
    unfold accumulatedUnit
    split
    · exact .countUnit ..
    · exact .refl ..
  exact ((BlockStep.setRun s m _).trans (hinterval _)).trans (hunit _)

theorem BlockStep.lockedWord (x : Expected) (w : Word) : BlockStep m s (lockedWord s m x w) := by
  unfold Machine.lockedWord
  split
  · exact .modLane ..
  · rename_i ref mask _
    refine BlockStep.trans (.accumulate s m (ones mask) (erroredBits w ref mask)) ?_
    simp only [moveSlip]
    split
    · exact .loseLock ..
    · exact .modLane ..

end

theorem BlockStep.searchWord {s t : State} {m : Lane} {w : Word} (h : searchWord s m w = .ok t) : BlockStep m s t := by
  simp only [Machine.searchWord] at h
  split at h
  · split at h <;> cases h
    split
    · exact .modLane ..
    · exact .refl ..
  · split at h
    · cases h
    · split at h <;> cases h
      · exact .refl ..
      · exact .modLane ..

/-- All that a word at checker m does beside its lane. -/
theorem BlockStep.receiveAt {s t : State} {m : Lane} {w : Word} (h : receiveAt s m w = .ok t) : BlockStep m s t := by
  unfold Machine.receiveAt at h
  split at h
  · cases h
    exact .refl ..
  · exact .searchWord h
  · split at h <;> cases h
    exact .verifyWord ..
  · split at h <;> cases h
    exact .lockedWord ..

end Sys2Proof.Machine
end

section
/-!
PROOF. One checker over two states that its lane stands alike in (R76, R115, R124): a word leaves the lane alike again, so
that what the checkers before it have done does not matter to it.
-/

namespace Sys2Proof.Machine

/-! ### Lanes that stand alike -/

/-- Lane n's result cursors and events stand in both ports of `t` as in those of `u`. -/
def PortsAlike (n : Lane) (u t : State) : Prop :=
  ∀ p : Port, (t.port p).results[n] = (u.port p).results[n] ∧
    ∀ k, k < 6 → (t.port p).view.pending.getLsbD (6 * n.val + k) = (u.port p).view.pending.getLsbD (6 * n.val + k)

/-- Lane n stands in `t` as in `u`, its chain offer too. -/
structure LaneAlike (n : Lane) (u t : State) : Prop where
  lane : t.lane n = u.lane n
  ports : PortsAlike n u t

section
variable {n : Lane} {u t : State}

theorem PortsAlike.modLane (h : PortsAlike n u t) (m : Lane) (f g : LaneState → LaneState) :
    PortsAlike n (u.modLane m f) (t.modLane m g) := fun p => by
  simp only [State.modLane_port]
  exact h p

theorem PortsAlike.raise (h : PortsAlike n u t) (e : Event) : PortsAlike n (u.raise e) (t.raise e) := fun p => by
  simp only [State.raise_port, BitVec.getLsbD_or]
  exact ⟨(h p).1, fun k hk => by rw [(h p).2 k hk]⟩

theorem PortsAlike.modResult (h : PortsAlike n u t) (f : ResultCursor → ResultCursor) :
    PortsAlike n (u.modPorts fun v => v.modResult n f) (t.modPorts fun v => v.modResult n f) := fun p => by
  simp only [State.modPorts_port, PortState.modResult]
  refine ⟨?_, (h p).2⟩
  simp [(h p).1]

theorem PortsAlike.offerClose (h : PortsAlike n u t) (m : Lane) (cause : CloseCause) (sender : Option Port) :
    PortsAlike n (offerClose u m cause sender) (offerClose t m cause sender) := by
  have port : ∀ (s : State) p, (Machine.offerClose s m cause sender).port p = s.port p := fun s p => by
    unfold Machine.offerClose
    split
    · cases p <;> rfl
    · rfl
  exact fun p => by rw [port, port]; exact h p

/-! ### Closes and units over lanes that stand alike -/

theorem LaneAlike.modLane (h : LaneAlike n u t) (f : LaneState → LaneState) :
    LaneAlike n (u.modLane n f) (t.modLane n f) :=
  ⟨by rw [modLane_lane_self, modLane_lane_self, h.lane], h.ports.modLane n f f⟩

theorem LaneAlike.raise (h : LaneAlike n u t) (e : Event) : LaneAlike n (u.raise e) (t.raise e) :=
  ⟨h.lane, h.ports.raise e⟩

theorem LaneAlike.modResult (h : LaneAlike n u t) (f : ResultCursor → ResultCursor) :
    LaneAlike n (u.modPorts fun v => v.modResult n f) (t.modPorts fun v => v.modResult n f) :=
  ⟨h.lane, h.ports.modResult f⟩

theorem LaneAlike.pushRecord (h : LaneAlike n u t) (r : IntervalRecord) :
    LaneAlike n (pushRecord u n r) (pushRecord t n r) := by
  unfold Machine.pushRecord
  rw [h.lane]
  dsimp only
  split
  · split
    · exact (h.modLane _).modResult _
    · exact h.modLane _
  · exact h.modLane _

theorem LaneAlike.closeInterval (h : LaneAlike n u t) (cause : CloseCause) (sender : Option Port) :
    LaneAlike n (closeInterval u n cause sender) (closeInterval t n cause sender) := by
  have offer : ∀ {a b}, LaneAlike n a b →
      LaneAlike n (Machine.offerClose a n cause sender) (Machine.offerClose b n cause sender) := fun hab =>
    ⟨by rw [offerClose_lane, offerClose_lane, hab.lane], hab.ports.offerClose n cause sender⟩
  unfold Machine.closeInterval
  refine offer ?_
  rw [h.lane]
  split
  · simp only [closeWithRecord, h.lane]
    have pushed := ((h.modLane fun _ => classifyOpenSlice (u.lane n)).pushRecord
      (buildRecord n cause (classifyOpenSlice (u.lane n)))).raise (.intervalClosed n)
    split
    · exact (pushed.raise _).modLane _
    · exact pushed.modLane _
  · exact h.modLane _

theorem LaneAlike.intervalExpiryIfDue (h : LaneAlike n u t) :
    LaneAlike n (intervalExpiryIfDue u n) (intervalExpiryIfDue t n) := by
  simp only [Machine.intervalExpiryIfDue, h.lane]
  split
  · split
    · exact (h.closeInterval ..).modLane _
    · exact (h.closeInterval ..).modLane _
  · exact h

theorem LaneAlike.countUnit (h : LaneAlike n u t) : LaneAlike n (countUnit u n) (countUnit t n) :=
  (h.modLane fun l => Machine.sliceCloseIfDue l.withUnit).intervalExpiryIfDue

end

/-! ### Lanes that stand alike but for an offer that waits in addition -/

/-- A lane with another chain offer. -/
def LaneState.withOffer (l : LaneState) (o : ChainOffer) : LaneState := { l with timer := { l.timer with chainOffer := o } }

/-- A change of a lane that neither reads nor moves the chain offer, nor what an offer comes to wait by. -/
structure SparesOffer (f : LaneState → LaneState) : Prop where
  offer : ∀ l o, f (l.withOffer o) = (f l).withOffer o
  state : ∀ l, (f l).timer.state = l.timer.state
  config : ∀ l, (f l).timer.config = l.timer.config

theorem SparesOffer.chainOffer {f : LaneState → LaneState} (h : SparesOffer f) (l : LaneState) :
    (f l).timer.chainOffer = l.timer.chainOffer :=
  congrArg (·.timer.chainOffer) (h.offer l l.timer.chainOffer)

theorem SparesOffer.checker (f : LaneState → Checker) (hf : ∀ l o, f (l.withOffer o) = f l) :
    SparesOffer fun l => { l with checker := f l } :=
  ⟨fun l o => by simp only [hf]; rfl, fun _ => rfl, fun _ => rfl⟩

theorem SparesOffer.withRun (run : RunTotals × Bool) : SparesOffer (·.withRun run) :=
  ⟨fun _ _ => rfl, fun _ => rfl, fun _ => rfl⟩

theorem SparesOffer.withInterval (a : IntervalAcc × Bool) : SparesOffer (·.withInterval a) :=
  ⟨fun _ _ => rfl, fun _ => rfl, fun _ => rfl⟩

theorem SparesOffer.withGain : SparesOffer LaneState.withGain := ⟨fun _ _ => rfl, fun _ => rfl, fun _ => rfl⟩

theorem SparesOffer.withLoss : SparesOffer LaneState.withLoss := ⟨fun _ _ => rfl, fun _ => rfl, fun _ => rfl⟩

section
variable {n : Lane} {closing : Lane → Prop} {u t : State}

theorem LaneAlike.stands (h : LaneAlike n u t) : LaneStandsAs n closing u t :=
  ⟨by rw [h.lane], .inl (by rw [h.lane]), h.ports⟩

theorem LaneStandsAs.refl (s : State) : LaneStandsAs n closing s s :=
  LaneAlike.stands ⟨rfl, fun _ => ⟨rfl, fun _ _ => rfl⟩⟩

/-- A timer that does not wait has no offer in addition. -/
theorem LaneStandsAs.alike (h : LaneStandsAs n closing u t) (nowait : (u.lane n).timer.state ≠ .wait) :
    LaneAlike n u t := by
  obtain ⟨lane, offer | ⟨⟨_, -, -, wait, -⟩, -⟩, ports⟩ := h
  · exact ⟨by rw [lane, offer], ports⟩
  · exact absurd wait nowait

theorem LaneStandsAs.trans {s : State} (h : LaneStandsAs n closing s u) (g : LaneStandsAs n closing u t) :
    LaneStandsAs n closing s t := by
  obtain ⟨hlane, hoffer, hports⟩ := h
  obtain ⟨glane, goffer, gports⟩ := g
  have state : (u.lane n).timer.state = (s.lane n).timer.state := congrArg (·.timer.state) hlane
  have config : (u.lane n).timer.config = (s.lane n).timer.config := congrArg (·.timer.config) hlane
  refine ⟨?_, ?_, fun p => ?_⟩
  · rw [glane, hlane]
  · rw [state, config] at goffer
    rcases hoffer with ho | ⟨hm, ho⟩ <;> rcases goffer with go | ⟨gm, go⟩
    · exact .inl (go.trans ho)
    · exact .inr ⟨gm, by rw [go, ho]⟩
    · exact .inr ⟨hm, go.trans ho⟩
    · exact .inr ⟨hm, by rw [go, ho]⟩
  · exact ⟨(gports p).1.trans (hports p).1, fun k hk => ((gports p).2 k hk).trans ((hports p).2 k hk)⟩

/-- An offer that no command owes is the close's standing alone. -/
theorem ChainOffer.join_none (o : ChainOffer) : o.join Option.none = { o with standing := true } := by
  simp [ChainOffer.join]

/-- A word at another checker leaves the lane as it was, but for an offer of that checker's close. -/
theorem BlockStep.stands {m : Lane} (h : BlockStep m u t) (hn : n ≠ m) (hm : closing m) : LaneStandsAs n closing u t := by
  have ports : PortsAlike n u t := fun p =>
    ⟨h.results p n hn, fun k hk => h.flags p _ fun hbit => hn (Fin.ext (by omega))⟩
  rcases h.lane n hn with hl | hl
  · exact LaneAlike.stands ⟨hl, ports⟩
  · rcases takeOffer_cases m none (u.lane n) with ho | ⟨wait, chain, ho⟩
    · exact LaneAlike.stands ⟨hl.trans ho, ports⟩
    · rw [ho] at hl
      refine ⟨by rw [hl], .inr ⟨⟨m, hn.symm, hm, wait, chain⟩, ?_⟩, ports⟩
      rw [hl]
      exact ChainOffer.join_none _

/-! ### A word over lanes that stand alike -/

theorem LaneStandsAs.checker (h : LaneStandsAs n closing u t) : (t.lane n).checker = (u.lane n).checker := by
  rw [h.1]

theorem LaneStandsAs.acc (h : LaneStandsAs n closing u t) : (t.lane n).acc = (u.lane n).acc := by
  rw [h.1]

theorem LaneStandsAs.counting (h : LaneStandsAs n closing u t) : counting (t.lane n) = counting (u.lane n) := by
  rw [h.1]
  rfl

theorem LaneStandsAs.timerConfig (h : LaneStandsAs n closing u t) :
    (t.lane n).timer.config = (u.lane n).timer.config := by
  rw [h.1]

theorem LaneStandsAs.modLane (h : LaneStandsAs n closing u t) {f : LaneState → LaneState} (hf : SparesOffer f) :
    LaneStandsAs n closing (u.modLane n f) (t.modLane n f) := by
  have lane : t.lane n = (u.lane n).withOffer (t.lane n).timer.chainOffer := h.1
  have changed : f (t.lane n) = (f (u.lane n)).withOffer (t.lane n).timer.chainOffer :=
    (congrArg f lane).trans (hf.offer ..)
  refine ⟨?_, ?_, PortsAlike.modLane h.2.2 n f f⟩
  · simp only [modLane_lane_self, hf.chainOffer]
    exact changed
  · simp only [modLane_lane_self, hf.chainOffer, hf.state, hf.config]
    exact h.2.1

theorem LaneStandsAs.raise (h : LaneStandsAs n closing u t) (e : Event) :
    LaneStandsAs n closing (u.raise e) (t.raise e) :=
  ⟨h.1, h.2.1, PortsAlike.raise h.2.2 e⟩

theorem LaneStandsAs.raisedIf (h : LaneStandsAs n closing u t) (due : Bool) (e : Event) :
    LaneStandsAs n closing (raisedIf due e u) (raisedIf due e t) := by
  cases due
  · exact h
  · exact h.raise e

theorem LaneStandsAs.setRun (h : LaneStandsAs n closing u t) (run : RunTotals × Bool) :
    LaneStandsAs n closing (setRun u n run) (setRun t n run) := by
  rw [setRun_eq, setRun_eq, h.acc]
  exact (h.modLane (.withRun run)).raisedIf ..

theorem LaneStandsAs.setInterval (h : LaneStandsAs n closing u t) (a : IntervalAcc × Bool) :
    LaneStandsAs n closing (setInterval u n a) (setInterval t n a) := by
  rw [setInterval_eq, setInterval_eq, h.acc]
  exact (h.modLane (.withInterval a)).raisedIf ..

theorem LaneStandsAs.accumulate (h : LaneStandsAs n closing u t) (c e : Nat) :
    LaneStandsAs n closing (accumulatedUnit (accumulateInterval (accumulateRun u n c e) n c e) n)
      (accumulatedUnit (accumulateInterval (accumulateRun t n c e) n c e) n) := by
  have run : LaneStandsAs n closing (accumulateRun u n c e) (accumulateRun t n c e) := by
    simp only [accumulateRun, h.acc, h.checker]
    exact h.setRun _
  have interval : ∀ {a b}, LaneStandsAs n closing a b →
      LaneStandsAs n closing (accumulateInterval a n c e) (accumulateInterval b n c e) := fun hab => by
    simp only [accumulateInterval, hab.counting, hab.acc, hab.checker]
    split
    · exact hab.setInterval _
    · exact hab
  have unit : ∀ {a b}, LaneStandsAs n closing a b →
      LaneStandsAs n closing (accumulatedUnit a n) (accumulatedUnit b n) := fun {a b} hab => by
    simp only [accumulatedUnit, hab.counting, hab.timerConfig]
    split
    · rename_i hcount
      have run := run_of_counting (Bool.and_eq_true_iff.mp hcount).1
      exact (hab.alike (by rw [run]; decide)).countUnit.stands
    · exact hab
  exact unit (interval run)

theorem LaneStandsAs.gainLock (h : LaneStandsAs n closing u t) (c : Checker) :
    LaneStandsAs n closing (gainLock u n c) (gainLock t n c) := by
  simp only [Machine.gainLock, ← withGain_eq, modLane_lane_self, LaneState.modChecker, h.acc]
  have locked := h.modLane (.checker (fun _ => { c with state := .locked, progress := 0, slip := 0 }) fun _ _ => rfl)
  exact ((locked.setRun _).modLane .withGain).raise _

theorem LaneStandsAs.loseLock (h : LaneStandsAs n closing u t) :
    LaneStandsAs n closing (loseLock u n) (loseLock t n) := by
  simp only [Machine.loseLock, ← withLoss_eq, modLane_lane_self, LaneState.modChecker, h.acc, h.checker]
  exact (((h.modLane (.checker (fun l => discardReference l.checker .search) fun _ _ => rfl)).setRun _).modLane
    .withLoss).raise _

theorem LaneStandsAs.verifyWord (h : LaneStandsAs n closing u t) (x : Expected) (w : Word) :
    LaneStandsAs n closing (verifyWord u n x w) (verifyWord t n x w) := by
  unfold Machine.verifyWord
  split
  · exact h.modLane (.checker _ fun _ _ => rfl)
  · split
    · split
      · exact h.modLane (.checker _ fun _ _ => rfl)
      · exact h.gainLock _
    · exact h.modLane (.checker (fun l => discardReference l.checker .search) fun _ _ => rfl)

theorem LaneStandsAs.lockedWord (h : LaneStandsAs n closing u t) (x : Expected) (w : Word) :
    LaneStandsAs n closing (lockedWord u n x w) (lockedWord t n x w) := by
  unfold Machine.lockedWord
  split
  · exact h.modLane (.checker _ fun _ _ => rfl)
  · rename_i ref mask _
    have counted := h.accumulate (ones mask) (erroredBits w ref mask)
    simp only [moveSlip, counted.checker]
    split
    · exact counted.loseLock
    · exact counted.modLane (.checker _ fun _ _ => rfl)

end

end Sys2Proof.Machine
end

section
/-!
PROOF. A word on its way past the checkers of its source (R76, R115, logs 21, 23): what each checker does with it, it does
as if it were the only one.
-/

namespace Sys2Proof.Machine

/-! ### A word at one checker, read from what it depends on -/

/-- The expectation of a word reads the segments, the word store, the plan and the checker alone. -/
theorem expected_congr {u t : State} {n : Lane} (hs : SlotStep u t) (plan : checkerPlan t n = checkerPlan u n)
    (checker : (t.lane n).checker = (u.lane n).checker) : expected t n = expected u n := by
  simp only [expected, freeRunSegment, definedSegment, hs.record, hs.store, plan, checker]

section
variable {n : Lane} {closing : Lane → Prop} {u t : State}

theorem LaneStandsAs.checkerPlan (h : LaneStandsAs n closing u t) (hs : SlotStep u t) :
    checkerPlan t n = checkerPlan u n := by
  simp only [Machine.checkerPlan, h.checker, (hs.lane _).plan]

theorem LaneStandsAs.searchWord (h : LaneStandsAs n closing u t) (hs : SlotStep u t) {w : Word} {t' : State}
    (ht : searchWord t n w = .ok t') : ∃ u', searchWord u n w = .ok u' ∧ LaneStandsAs n closing u' t' := by
  have enters : ∀ pos (prbs : Checker → BitVec 32),
      SparesOffer fun l => { l with checker := enterVerify l.checker pos (prbs l.checker) } := fun _ _ =>
    .checker _ fun _ _ => rfl
  have anchor : ∀ pl sg, anchorMatches t pl sg w = anchorMatches u pl sg w := fun _ _ => by
    simp only [anchorMatches, hs.store]
  simp only [Machine.searchWord, freeRunSegment, definedSegment, anchor, h.checkerPlan hs, h.checker, hs.record] at ht ⊢
  split at ht
  · split at ht <;> cases ht
    refine ⟨_, rfl, ?_⟩
    split
    · exact h.modLane (enters _ _)
    · exact h
  · split at ht
    · cases ht
    · split at ht <;> cases ht
      · exact ⟨_, rfl, h⟩
      · exact ⟨_, rfl, h.modLane (enters _ fun _ => _)⟩

/-- A word at a checker leaves lanes alike that stood alike. -/
theorem LaneStandsAs.receiveAt (h : LaneStandsAs n closing u t) (hs : SlotStep u t) {w : Word} {t' : State}
    (ht : receiveAt t n w = .ok t') : ∃ u', receiveAt u n w = .ok u' ∧ LaneStandsAs n closing u' t' := by
  simp only [Machine.receiveAt, expected_congr hs (h.checkerPlan hs) h.checker, h.checker] at ht ⊢
  split at ht
  · cases ht
    exact ⟨u, rfl, h⟩
  · exact h.searchWord hs ht
  · split at ht <;> cases ht
    exact ⟨_, rfl, h.verifyWord ..⟩
  · split at ht <;> cases ht
    exact ⟨_, rfl, h.lockedWord ..⟩

end

/-! ### A word at each checker of its source in turn -/

section
variable {src : Source} {w : Word} {s t : State} {n : Lane}

theorem walkOutcome_eq_next {r : Except Fault State} : walkOutcome r = .next t ↔ r = .ok t := by
  cases r <;> simp [walkOutcome]

theorem heard_eq_next : heard n w s = .next t ↔ receiveAt s n w = .ok t := walkOutcome_eq_next

/-- Each checker in turn is delivered the word. -/
theorem heardInTurn_cons (m : Lane) (ns : List Lane) : heardInTurn src w (m :: ns) s =
    match deliverTo src w s m with
    | .ok u => heardInTurn src w ns u
    | .error f => .fault f := by
  rw [heardInTurn, deliverTo, heard]
  split
  · cases receiveAt s m w <;> rfl
  · rfl

/-- A word arrives at the checkers of its source in the order of their numbers. -/
theorem arrives_eq_heardInTurn : arrives src w s = heardInTurn src w (List.finRange 4) s := by
  have order : List.finRange 4 = [0, 1, 2, 3] := by decide
  rw [arrives_eq, deliver, order, heardInTurn_cons]
  cases deliverTo src w s 0 with
  | error f => rfl
  | ok s0 =>
    dsimp only
    rw [heardInTurn_cons]
    cases deliverTo src w s0 1 with
    | error f => rfl
    | ok s1 =>
      dsimp only
      rw [heardInTurn_cons]
      cases deliverTo src w s1 2 with
      | error f => rfl
      | ok s2 =>
        dsimp only
        rw [heardInTurn_cons]
        cases deliverTo src w s2 3 <;> rfl

/-- Whatever other checkers take the word too, a checker of its source leaves its lane as it would by itself, and a lane
that no word reaches stands. -/
theorem heardInTurn_stands {closing : Lane → Prop} (n : Lane) {ns : List Lane} (distinct : ns.Nodup)
    (hclosing : ∀ m, (s.lane m).route.source = src → closing m) (h : heardInTurn src w ns s = .next t) :
    (n ∈ ns → (s.lane n).route.source = src → ∃ u, receiveAt s n w = .ok u ∧ LaneStandsAs n closing u t) ∧
    (n ∉ ns ∨ (s.lane n).route.source ≠ src → LaneStandsAs n closing s t) := by
  induction ns generalizing s with
  | nil =>
    cases h
    exact ⟨fun hn => (List.not_mem_nil hn).elim, fun _ => .refl _⟩
  | cons m ns ih =>
    obtain ⟨hm, distinct⟩ := List.nodup_cons.mp distinct
    rw [heardInTurn] at h
    split at h
    · rename_i hroute
      cases hr : receiveAt s m w with
      | error f =>
        rw [heard, hr] at h
        cases h
      | ok v =>
        rw [heard_eq_next.mpr hr] at h
        have hs := SlotStep.receiveAt hr
        have route : ∀ k, (v.lane k).route = (s.lane k).route := fun k => (hs.lane k).route
        obtain ⟨reached, spared⟩ := ih distinct (fun k hk => hclosing k (by rwa [← route k])) h
        rw [route n] at reached spared
        by_cases hn : n = m
        · subst hn
          exact ⟨fun _ _ => ⟨v, hr, spared (.inl hm)⟩, fun hno =>
            hno.elim (fun hno => absurd List.mem_cons_self hno) fun hno => absurd hroute hno⟩
        · have stands : LaneStandsAs n closing s v := (BlockStep.receiveAt hr).stands hn (hclosing m hroute)
          refine ⟨fun hmem hsrc => ?_, fun hno =>
            stands.trans (spared (hno.imp_left fun hn => mt (List.mem_cons_of_mem m) hn))⟩
          obtain ⟨u, hu, hut⟩ := reached (List.mem_of_ne_of_mem hn hmem) hsrc
          obtain ⟨u', hu', huu⟩ := stands.receiveAt hs hu
          exact ⟨u', hu', huu.trans hut⟩
    · rename_i hroute
      obtain ⟨reached, spared⟩ := ih distinct hclosing h
      refine ⟨fun hmem hsrc => reached (List.mem_of_ne_of_mem (fun hn => hroute (by rwa [← hn])) hmem) hsrc,
        fun hno => spared (hno.imp_left fun hn => mt (List.mem_cons_of_mem m) hn)⟩

/-- A word raises no event but those of the lanes. -/
theorem deliver_flags (h : deliver src w s = .ok t) (p : Port) {k : Nat} (hk : 24 ≤ k) :
    (t.port p).view.pending.getLsbD k = (s.port p).view.pending.getLsbD k := by
  have flags : ∀ {u v m}, deliverTo src w u m = .ok v →
      (v.port p).view.pending.getLsbD k = (u.port p).view.pending.getLsbD k := fun {u v m} hv => by
    unfold deliverTo at hv
    split at hv
    · exact (BlockStep.receiveAt hv).flags p k (by omega)
    · cases hv
      rfl
  obtain ⟨s0, s1, s2, h0, h1, h2, h3⟩ := deliver_ok h
  rw [flags h3, flags h2, flags h1, flags h0]

/-- A word leaves the ports but for result cursors and events of the lanes. -/
theorem deliver_port (h : deliver src w s = .ok t) (p : Port) : ∃ pending results,
    t.port p = { s.port p with results := results, view := { (s.port p).view with pending := pending } } ∧
      ∀ k, 24 ≤ k → pending.getLsbD k = (s.port p).view.pending.getLsbD k := by
  obtain ⟨response, shiftedOut, segCursor, wordCursor, enable, length, holdoff, -, -⟩ := (SlotStep.deliver h).port p
  refine ⟨(t.port p).view.pending, (t.port p).results, ?_, fun k hk => deliver_flags h p hk⟩
  dsimp only
  rw [← response, ← shiftedOut, ← segCursor, ← wordCursor, ← enable, ← length, ← holdoff]

theorem receiveAt_off (state : (s.lane n).checker.state = .off) (w : Word) : receiveAt s n w = .ok s := by
  simp only [receiveAt, state]

/-- A word whose source feeds only checkers in OFF goes nowhere. -/
theorem arrives_off (off : ∀ m : Lane, (s.lane m).route.source = src → (s.lane m).checker.state = .off) :
    arrives src w s = .next s := by
  have nowhere : ∀ m, deliverTo src w s m = .ok s := fun m => by
    unfold deliverTo
    split
    · exact receiveAt_off (off m ‹_›) w
    · rfl
  simp only [arrives_eq, deliver, nowhere, walkOutcome]

end

/-- Settles O33: the tests of SEARCH, and for each word the checkers of its source one after another, of which each leaves
the others' lanes alone but for the offers of its closes. -/
theorem wordsOutsideALockAreTested : Obligations.WordsOutsideALockAreTested := by
  refine ⟨fun n w s sg state => ⟨fun mask anchor q mode record hmask hanchor next => ?_,
      fun o invert seed c mode record kind hc => ?_⟩,
    fun n w s off => handles_of_receiveAt (receiveAt_off off w), fun src w s => arrives_eq_heardInTurn,
    fun src w s t h => ?_, fun src w s off => arrives_off off, fun b w s => ⟨rfl, fun off => arrives_off off⟩⟩
  · have test := searchWord_sequence mode record next w
    rw [← receiveAt_search state, matchMask_eq, ← hmask] at test
    subst hanchor
    exact ⟨fun differs => handles_of_receiveAt (test.trans (congrArg _ (if_neg differs))),
      fun matched => handles_of_receiveAt (test.trans (congrArg _ (if_pos matched)))⟩
  · have test := searchWord_freeRun mode record kind w
    rw [← receiveAt_search state] at test
    rw [← inverted_eq] at hc
    subst hc
    exact ⟨fun passes => handles_of_receiveAt (by rw [test, selfSync_passes passes]; rfl),
      fun fails => handles_of_receiveAt (by rw [test, selfSync_fails fails]; rfl)⟩
  · have turn := arrives_eq_heardInTurn.symm.trans h
    have stands := fun n => heardInTurn_stands (closing := fun m => (s.lane m).route.source = src) n
      (List.nodup_finRange 4) (fun _ hm => hm) turn
    rw [arrives_eq, walkOutcome_eq_next] at h
    have kept := SlotStep.deliver h
    refine ⟨fun n hn => ?_, fun n hn => (stands n).2 (.inr hn), fun p => deliver_port h p, kept.segs, kept.store,
      kept.holders, kept.resetPhase, kept.freeCount, kept.pending⟩
    obtain ⟨u, hu, hut⟩ := (stands n).1 (List.mem_finRange n) hn
    exact ⟨u, heard_eq_next.mpr hu, hut⟩

end Sys2Proof.Machine
end

section
/-!
PROOF. The checkers and the interval timers stay sound (R79, R81, R94, R96, R116, R132 to R134): what a word does to its
checker, what interval timing does to a lane's timer and its slice mark, and both over a step.
-/

namespace Sys2Proof.Machine

/-! ### Checkers (R79, R81, R94, R96) -/

/-- A checker whose reference is discarded is sound (R81). -/
theorem CheckerSound.discarded {c : Checker} (h : CheckerSound c) (st : CheckState) :
    CheckerSound (discardReference c st) := by
  obtain ⟨hverify, hthreshold, -⟩ := h
  exact ⟨hverify, hthreshold, Nat.zero_le _, fun _ => rfl, hverify, fun _ => rfl, fun _ => rfl⟩

/-- A checker that enters VERIFY from SEARCH is sound (R89, R92). -/
theorem CheckerSound.entered {c : Checker} (h : CheckerSound c) (search : c.state = .search) (pos : Pos)
    (prbs : BitVec 32) : CheckerSound (enterVerify c pos prbs) := by
  obtain ⟨hverify, hthreshold, hslip, hunlocked, -⟩ := h
  exact ⟨hverify, hthreshold, hslip, fun _ => hunlocked (by rw [search]; decide), hverify, fun _ => rfl,
    fun hst => by rcases hst with hst | hst <;> cases hst⟩

/-- The slip score that a compared word leaves is within T (R96). -/
theorem nextSlip_le {c : Checker} {e : Nat} {slip : BitVec 6} (h : nextSlip c e = some slip)
    (within : c.slip.toNat ≤ c.config.threshold.toNat) : slip.toNat ≤ c.config.threshold.toNat := by
  have hlt := c.config.threshold.isLt
  unfold nextSlip at h
  split at h
  · cases h
    split
    · exact Nat.zero_le _
    · bv_omega
  · split at h <;> cases h
    bv_omega

/-- A checker whose reference alone has moved, in VERIFY or LOCKED, is as sound as before, with a progress and a slip score
that keep to their bounds. -/
theorem CheckerSound.moved {c k : Checker} (h : CheckerSound c) (config : k.config = c.config)
    (state : k.state = .verify ∨ k.state = .locked) (progress : k.progress.toNat < c.config.verify.toNat)
    (verifying : k.state ≠ .verify → k.progress = 0) (slip : k.slip.toNat ≤ c.config.threshold.toNat)
    (unlocked : k.state ≠ .locked → k.slip = 0) : CheckerSound k := by
  obtain ⟨hverify, hthreshold, -⟩ := h
  refine ⟨config ▸ hverify, config ▸ hthreshold, config ▸ slip, unlocked, config ▸ progress, verifying, fun hst => ?_⟩
  rcases hst with hst | hst <;> rw [hst] at state <;> rcases state with state | state <;> cases state

/-- Every move of a word keeps its checker sound. -/
theorem CheckerMove.sound {s : State} {n : Lane} {k : Checker} (h : CheckerMove s n k)
    (hs : CheckerSound (s.lane n).checker) : CheckerSound k := by
  obtain ⟨hverify, -, hslip, hunlocked, hprogress, hverifying, -⟩ := id hs
  cases h with
  | stays => exact hs
  | anchored _ search => exact hs.entered search ..
  | synchronised _ search => exact hs.entered search ..
  | passed x reference state =>
    obtain ⟨config, hstate, progress, slip, -⟩ := expected_config reference
    exact hs.moved config (hstate ▸ state) (progress ▸ hprogress) (by rw [hstate, progress]; exact hverifying)
      (slip ▸ hslip) (by rw [hstate, slip]; exact hunlocked)
  | verified x reference verify below =>
    obtain ⟨config, hstate, progress, slip, -⟩ := expected_config reference
    rw [config] at below
    refine hs.moved config (.inl (hstate.trans verify)) ?_ (fun hno => absurd (hstate.trans verify) hno) (slip ▸ hslip)
      fun _ => slip.trans (hunlocked (by rw [verify]; decide))
    have hlt := (s.lane n).checker.config.verify.isLt
    bv_omega
  | gained x reference verify =>
    obtain ⟨config, -⟩ := expected_config reference
    exact hs.moved config (.inr rfl) hverify (fun _ => rfl) (Nat.zero_le _) fun _ => rfl
  | compared x e slip reference locked moved =>
    obtain ⟨config, hstate, progress, -⟩ := expected_config reference
    refine hs.moved config (.inr (hstate.trans locked)) (progress ▸ hprogress) (fun _ => progress.trans ?_)
      (nextSlip_le moved hslip) fun hno => absurd (hstate.trans locked) hno
    exact hverifying (by rw [locked]; decide)
  | lost => exact hs.discarded .search

/-- CHECK_CONFIG stores a V and a T of at least 1 (R80), and a checker in OFF holds nothing of a search (R81). -/
theorem CheckerSound.configured {c : Checker} (h : CheckerSound c) (off : c.state = .off) {plan v th mode : Byte}
    {cfg : CheckConfig} (config : checkConfigOfBytes plan v th mode = some cfg) :
    CheckerSound { c with config := cfg } := by
  obtain ⟨-, -, -, hunlocked, -, hverifying, hpos⟩ := h
  obtain ⟨-, hv, ht, -⟩ := checkConfigOfBytes_eq_some config
  have verify : 1 ≤ cfg.verify.toNat := by rw [hv, storeVerify_toNat]; exact le_max_left ..
  have threshold : 1 ≤ cfg.threshold.toNat := by rw [ht, storeLoss_toNat]; exact le_max_left ..
  have slip : c.slip = 0 := hunlocked (by rw [off]; decide)
  have progress : c.progress = 0 := hverifying (by rw [off]; decide)
  refine ⟨verify, threshold, ?_, fun _ => slip, ?_, fun _ => progress, hpos⟩
  · dsimp only
    rw [slip]
    exact Nat.zero_le _
  · dsimp only
    rw [progress]
    exact verify

/-! ### The worst-slice list (R134) -/

theorem insertWorst_length (e : WorstEntry) (ws : List WorstEntry) : (insertWorst e ws).length = ws.length + 1 := by
  induction ws with
  | nil => rfl
  | cons x xs ih =>
    simp only [insertWorst]
    split <;> simp [ih]

theorem mem_insertWorst {e x : WorstEntry} {ws : List WorstEntry} (h : x ∈ insertWorst e ws) : x = e ∨ x ∈ ws := by
  induction ws with
  | nil => exact .inl (List.mem_singleton.mp h)
  | cons y ys ih =>
    simp only [insertWorst] at h
    split at h
    · rcases List.mem_cons.mp h with rfl | h
      · exact .inr List.mem_cons_self
      · exact (ih h).imp_right (List.mem_cons_of_mem y)
    · exact List.mem_cons.mp h

/-- An entry put in keeps the descending order. -/
theorem insertWorst_pairwise {e : WorstEntry} {ws : List WorstEntry}
    (h : ws.Pairwise fun x y => y.bits.toNat ≤ x.bits.toNat) :
    (insertWorst e ws).Pairwise fun x y => y.bits.toNat ≤ x.bits.toNat := by
  induction ws with
  | nil => exact List.pairwise_singleton ..
  | cons x xs ih =>
    obtain ⟨hx, hxs⟩ := List.pairwise_cons.mp h
    simp only [insertWorst]
    split
    · rename_i hle
      refine List.pairwise_cons.mpr ⟨fun y hy => ?_, ih hxs⟩
      rcases mem_insertWorst hy with rfl | hy
      · exact hle
      · exact hx y hy
    · rename_i hlt
      refine List.pairwise_cons.mpr ⟨fun y hy => ?_, h⟩
      rcases List.mem_cons.mp hy with rfl | hy
      · omega
      · exact (hx y hy).trans (by omega)

/-- A slice offered leaves the list in order and in its size. -/
theorem offerWorst_sound {e : WorstEntry} {ws : List WorstEntry} (length : ws.length ≤ 4)
    (order : ws.Pairwise fun x y => y.bits.toNat ≤ x.bits.toNat) :
    (offerWorst e ws).length ≤ 4 ∧ (offerWorst e ws).Pairwise fun x y => y.bits.toNat ≤ x.bits.toNat := by
  have size : Config.worstSize = 4 := rfl
  unfold offerWorst
  split
  · exact ⟨by rw [insertWorst_length]; omega, insertWorst_pairwise order⟩
  · split
    · split
      · refine ⟨?_, insertWorst_pairwise (order.sublist (List.dropLast_sublist ws))⟩
        rw [insertWorst_length, List.length_dropLast]
        omega
      · exact ⟨length, order⟩
    · exact ⟨length, order⟩

/-! ### Interval timing (R116, R132, R133) -/

/-- R132, unit TIME, on one lane: the open slice of an interval that counts outside LOCKED is marked. -/
def MarkSound (l : LaneState) : Prop := unavailableNow l = true → l.timer.progress.sliceMark = true

/-- A change of a lane that keeps its timer sound and its open slice marked. -/
structure TimingMove (l k : LaneState) : Prop where
  timer : TimerSound l.timer → TimerSound k.timer
  mark : MarkSound l → MarkSound k

theorem unavailableNow_iff {l : LaneState} : unavailableNow l = true ↔
    l.timer.config.unit = .time ∧ l.timer.state = .run ∧ gateActive l = true ∧ l.checker.state ≠ .locked := by
  simp only [unavailableNow, counting, Bool.and_eq_true, beq_iff_eq, bne_iff_ne, and_assoc]

/-- A lane is unavailable only in RUN. -/
theorem unavailableNow_run {l : LaneState} (h : unavailableNow l = true) : l.timer.state = .run :=
  (unavailableNow_iff.mp h).2.1

theorem TimingMove.refl (l : LaneState) : TimingMove l l := ⟨id, id⟩

theorem TimingMove.trans {a b c : LaneState} (h : TimingMove a b) (g : TimingMove b c) : TimingMove a c :=
  ⟨g.timer ∘ h.timer, g.mark ∘ h.mark⟩

section
variable {l k : LaneState}

/-- The timer and the gate line are as they were, and the checker has not left LOCKED. -/
theorem TimingMove.checker (timer : k.timer = l.timer) (gate : k.gateLine = l.gateLine)
    (locked : l.checker.state = .locked → k.checker.state = .locked) : TimingMove l k where
  timer h := timer ▸ h
  mark h hk := by
    have active : gateActive k = gateActive l := by simp only [gateActive, timer, gate]
    obtain ⟨unit, run, gate, unlocked⟩ := unavailableNow_iff.mp hk
    rw [timer] at unit run ⊢
    exact h (unavailableNow_iff.mpr ⟨unit, run, active ▸ gate, fun hl => unlocked (locked hl)⟩)

/-- A change of a lane beside its timer, its gate line and its checker. -/
theorem TimingMove.beside (timer : k.timer = l.timer) (gate : k.gateLine = l.gateLine) (checker : k.checker = l.checker) :
    TimingMove l k :=
  .checker timer gate fun h => checker ▸ h

/-- A timer outside RUN that holds nothing of an interval. -/
theorem TimingMove.outside (state : k.timer.state ≠ .run) (progress : k.timer.progress = Reset.progress) :
    TimingMove l k where
  timer _ := by
    unfold TimerSound
    rw [progress]
    exact ⟨fun _ => rfl, rfl, by decide, .nil⟩
  mark _ hk := absurd (unavailableNow_run hk) state

/-- A timer that stays outside RUN, its interval's progress as it was. -/
theorem TimingMove.idle (old : l.timer.state ≠ .run) (new : k.timer.state ≠ .run)
    (progress : k.timer.progress = l.timer.progress) : TimingMove l k where
  timer h := (TimingMove.outside (l := l) new (progress.trans (h.1 old))).timer h
  mark _ hk := absurd (unavailableNow_run hk) new

end

/-- A mark that has been set where R132 asks for it is sound. -/
theorem MarkSound.refreshMark (l : LaneState) : MarkSound (refreshMark l) := fun hk =>
  Bool.or_eq_true_iff.mpr (.inr hk)

/-- A fresh interval, whatever stood before (R121). -/
theorem TimingMove.startInterval (l k : LaneState) : TimingMove l (startInterval k) where
  timer _ := ⟨fun hno => absurd rfl hno, rfl, Nat.zero_le 4, .nil⟩
  mark _ := .refreshMark _

/-- The mark set where R132 asks for it. -/
theorem TimingMove.refreshMark (l : LaneState) : TimingMove l (refreshMark l) where
  timer h := by
    obtain ⟨outside, sum, length, order⟩ := h
    refine ⟨fun hno => ?_, sum, length, order⟩
    have hnow : unavailableNow l = false := Bool.eq_false_iff.mpr fun h => hno (unavailableNow_run h)
    simp only [Machine.refreshMark, LaneState.modProgress, hnow, Bool.or_false]
    exact outside hno
  mark _ := .refreshMark l

/-- A lane whose gate line alone has changed, once its mark is set where R132 asks for it (R119). -/
theorem TimingMove.gateLine (l : LaneState) (level : Level) :
    TimingMove l (Machine.refreshMark { l with gateLine := level }) where
  timer := (TimingMove.refreshMark { l with gateLine := level }).timer
  mark _ := .refreshMark _

theorem TimingMove.takeOffer (n : Lane) (sender : Option Port) (l : LaneState) : TimingMove l (takeOffer n sender l) := by
  rcases takeOffer_cases n sender l with h | ⟨-, -, h⟩ <;> rw [h]
  · exact .refl l
  · exact ⟨id, id⟩

/-! ### Slices and units -/

/-- A running timer whose counts of units alone differ. -/
theorem TimingMove.withUnit {l : LaneState} (run : l.timer.state = .run) : TimingMove l l.withUnit where
  timer h := ⟨fun hno => absurd run hno, h.2⟩
  mark h := h

/-- A class counted keeps the sum of the classes in step with the slices closed (R133). -/
theorem countClass_sum (c : SliceClass) (q : IntervalProgress) :
    (countClass c q).clean + (countClass c q).errored + (countClass c q).severe + (countClass c q).unavailable =
      q.clean + q.errored + q.severe + q.unavailable + 1 := by
  cases c <;> simp only [countClass] <;> ring

/-- The close of a running timer's open slice (R133, R134). -/
theorem TimingMove.classifySlice {l : LaneState} (run : l.timer.state = .run) : TimingMove l (classifySlice l) where
  timer h := by
    obtain ⟨-, sum, length, order⟩ := h
    refine ⟨fun hno => absurd run hno, ?_, ?_⟩
    · exact (congrArg (· + 1) sum).trans (countClass_sum ..).symm
    · simp only [Machine.classifySlice, LaneState.modProgress]
      split
      · exact offerWorst_sound length order
      · exact ⟨length, order⟩
  mark h hk := by
    have mark : (Machine.classifySlice l).timer.progress.sliceMark = l.timer.progress.sliceMark := by
      simp only [Machine.classifySlice, LaneState.modProgress]
      cases sliceClass l <;> rfl
    rw [mark]
    exact h hk

/-- The next slice of a running timer (R131, R132). -/
theorem TimingMove.openNextSlice {l : LaneState} (run : l.timer.state = .run) : TimingMove l (openNextSlice l) where
  timer h := ⟨fun hno => absurd run hno, h.2⟩
  mark _ := .refreshMark _

theorem TimingMove.sliceCloseIfDue (l : LaneState) : TimingMove l (sliceCloseIfDue l) := by
  simp only [Machine.sliceCloseIfDue, Bool.and_eq_true, beq_iff_eq]
  split
  · rename_i h
    exact (TimingMove.classifySlice h.1).trans (.openNextSlice (l := Machine.classifySlice l) h.1)
  · exact .refl l

theorem TimingMove.armTimer {l : LaneState} (stop : l.timer.state = .stop) : TimingMove l (armTimer l) := by
  unfold Machine.armTimer
  split
  · exact .startInterval l l
  · exact .idle (by rw [stop]; decide) (by rw [setTimer_state]; decide) rfl

theorem TimingMove.chainStartIfDue (l : LaneState) : TimingMove l (chainStartIfDue l) := by
  unfold Machine.chainStartIfDue
  split
  · exact .startInterval l l
  · exact .refl l

theorem TimingMove.gateEdgeTaken (level : Level) (l : LaneState) : TimingMove l (gateEdgeTaken level l) := by
  simp only [Machine.gateEdgeTaken]
  split
  · exact .startInterval l _
  · exact .gateLine l level

/-! ### Timing over a state -/

/-- Every lane moves, if at all, by a `TimingMove`. -/
structure TimingStep (s t : State) : Prop where
  lane : ∀ m, TimingMove (s.lane m) (t.lane m)

theorem TimingStep.refl (s : State) : TimingStep s s := ⟨fun _ => .refl _⟩

theorem TimingStep.trans {a b c : State} (h : TimingStep a b) (g : TimingStep b c) : TimingStep a c :=
  ⟨fun m => (h.lane m).trans (g.lane m)⟩

theorem TimingStep.raise (s : State) (e : Event) : TimingStep s (s.raise e) := ⟨fun _ => .refl _⟩

section
variable (s : State) (n : Lane)

theorem TimingStep.modLane {f : LaneState → LaneState} (h : TimingMove (s.lane n) (f (s.lane n))) :
    TimingStep s (s.modLane n f) := by
  refine ⟨fun m => ?_⟩
  rw [State.modLane_lane]
  split
  · subst m; exact h
  · exact .refl _

theorem TimingStep.setRun (run : RunTotals × Bool) : TimingStep s (setRun s n run) := by
  refine ⟨fun m => ?_⟩
  rw [setRun_lane]
  split
  · subst m; exact .beside rfl rfl rfl
  · exact .refl _

theorem TimingStep.setInterval (a : IntervalAcc × Bool) : TimingStep s (setInterval s n a) := by
  refine ⟨fun m => ?_⟩
  rw [setInterval_lane]
  split
  · subst m; exact .beside rfl rfl rfl
  · exact .refl _

/-- A close whose own lane goes on as `f` says: the other lanes are offered it (R124). -/
theorem TimingStep.close (cause : CloseCause) (sender : Option Port) {f : LaneState → LaneState}
    (own : TimingMove (s.lane n) (f ((closeInterval s n cause sender).lane n))) :
    TimingStep s ((closeInterval s n cause sender).modLane n f) := by
  refine ⟨fun m => ?_⟩
  by_cases hm : m = n
  · subst m
    rw [modLane_lane_self]
    exact own
  · rw [modLane_lane_ne hm, closeInterval_lane_ne hm]
    split
    · exact .takeOffer ..
    · exact .refl _

theorem closeInterval_progress (cause : CloseCause) (sender : Option Port) :
    ((closeInterval s n cause sender).lane n).timer.progress = Reset.progress := by
  obtain ⟨made, ring, offer, h⟩ := closeInterval_lane_self s n cause sender
  rw [h]
  rfl

theorem TimingStep.closeAndStop (cause : CloseCause) : TimingStep s (closeAndStop s n cause) :=
  .close s n cause none (.outside (by rw [setTimer_state]; decide) (closeInterval_progress s n cause none))

theorem TimingStep.closeAndRestart (cause : CloseCause) (sender : Option Port) :
    TimingStep s (closeAndRestart s n cause sender) :=
  .close s n cause sender (.startInterval ..)

theorem TimingStep.intervalExpiryIfDue : TimingStep s (intervalExpiryIfDue s n) := by
  simp only [Machine.intervalExpiryIfDue]
  split
  · split
    · exact .closeAndStop ..
    · exact .closeAndRestart ..
  · exact .refl s

theorem TimingStep.countUnit (run : (s.lane n).timer.state = .run) : TimingStep s (countUnit s n) :=
  (TimingStep.modLane s n (f := fun l => Machine.sliceCloseIfDue l.withUnit)
    ((TimingMove.withUnit run).trans (.sliceCloseIfDue _))).trans (.intervalExpiryIfDue _ n)

theorem TimingStep.tickTimer : TimingStep s (tickTimer s n) := by
  simp only [Machine.tickTimer, Bool.and_eq_true]
  split
  · rename_i h
    exact .countUnit s n (run_of_counting h.2)
  · exact .refl s

theorem TimingStep.stopTimer : TimingStep s (stopTimer s n) := by
  unfold Machine.stopTimer
  split
  · exact .refl s
  · rename_i wait
    exact .modLane s n (.idle (by rw [wait]; decide) (by rw [setTimer_state]; decide) rfl)
  · exact .closeAndStop ..

theorem TimingStep.startOwed (p : Port) : TimingStep s (s.startOwed p) := by
  refine ⟨fun m => ?_⟩
  rw [State.startOwed_lane]
  rcases startOwedAt_cases p (s.lane m) with h | ⟨-, -, -, h⟩ <;> rw [h]
  · exact .refl _
  · exact .startInterval ..

/-! ### Words -/

theorem TimingStep.modChecker {f : Checker → Checker}
    (locked : (s.lane n).checker.state = .locked → (f (s.lane n).checker).state = .locked) :
    TimingStep s (s.modLane n fun l => l.modChecker f) :=
  .modLane s n (.checker rfl rfl locked)

theorem TimingStep.gainLock (c : Checker) : TimingStep s (gainLock s n c) := by
  simp only [Machine.gainLock]
  have hlocked := TimingStep.modChecker s n
    (f := fun _ => { c with state := .locked, progress := 0, slip := 0 }) fun _ => rfl
  refine ((hlocked.trans (.setRun ..)).trans (.modLane _ n ?_)).trans (.raise ..)
  split
  · exact .beside rfl rfl rfl
  · exact .refl _

/-- The loss of lock leaves LOCKED and marks the open slice at once, when the interval counts (R97, R132). -/
theorem TimingMove.lost (l : LaneState) (c : Checker) (run : RunTotals × Bool) :
    TimingMove l (({ l with checker := c } : LaneState).withRun run).withLoss where
  timer h := by
    obtain ⟨outside, rest⟩ := h
    refine ⟨fun hno => ?_, rest⟩
    have hcount : counting (({ l with checker := c } : LaneState).withRun run) = false :=
      Bool.eq_false_iff.mpr fun h => hno (run_of_counting h)
    simp only [LaneState.withLoss, hcount, Bool.or_false]
    exact outside hno
  mark _ hk := by
    obtain ⟨-, hrun, hgate, -⟩ := unavailableNow_iff.mp hk
    refine Bool.or_eq_true_iff.mpr (.inr ?_)
    simp only [counting, Bool.and_eq_true, beq_iff_eq]
    exact ⟨hrun, hgate⟩

theorem TimingStep.loseLock : TimingStep s (loseLock s n) := by
  refine ⟨fun m => ?_⟩
  by_cases hm : m = n
  · subst m
    rw [loseLock_eq, lockLost_lane]
    exact .lost ..
  · simp only [Machine.loseLock, State.raise_lane, modLane_lane_ne hm, setRun_lane, if_neg hm]
    exact .refl _

theorem TimingStep.accumulate (c e : Nat) :
    TimingStep s (accumulatedUnit (accumulateInterval (accumulateRun s n c e) n c e) n) := by
  have hinterval : ∀ u, TimingStep u (accumulateInterval u n c e) := fun u => by
    unfold accumulateInterval
    split
    · exact .setInterval ..
    · exact .refl u
  have hunit : ∀ u, TimingStep u (accumulatedUnit u n) := fun u => by
    simp only [accumulatedUnit, Bool.and_eq_true]
    split
    · rename_i h
      exact .countUnit u n (run_of_counting h.1)
    · exact .refl u
  exact ((TimingStep.setRun s n _).trans (hinterval _)).trans (hunit _)

end

section
variable {s t : State} {n : Lane} {w : Word}

theorem TimingStep.searchWord (state : (s.lane n).checker.state = .search) (h : searchWord s n w = .ok t) :
    TimingStep s t := by
  have enters : ∀ f, TimingStep s (s.modLane n fun l => l.modChecker f) := fun f =>
    .modChecker s n fun locked => by rw [state] at locked; cases locked
  simp only [Machine.searchWord] at h
  split at h
  · split at h <;> cases h
    split
    · exact enters _
    · exact .refl s
  · split at h
    · cases h
    · split at h <;> cases h
      · exact .refl s
      · exact enters _

theorem TimingStep.verifyWord (state : (s.lane n).checker.state = .verify) (x : Expected) (w : Word) :
    TimingStep s (verifyWord s n x w) := by
  have moves : ∀ f, TimingStep s (s.modLane n fun l => l.modChecker f) := fun f =>
    .modChecker s n fun locked => by rw [state] at locked; cases locked
  unfold Machine.verifyWord
  split
  · exact moves _
  · split
    · split
      · exact moves _
      · exact .gainLock ..
    · exact moves _

theorem TimingStep.lockedWord {x : Expected} (locked : x.advanced.state = .locked) (w : Word) :
    TimingStep s (lockedWord s n x w) := by
  unfold Machine.lockedWord
  split
  · exact .modChecker s n fun _ => locked
  · rename_i ref mask _
    have counts := TimingStep.accumulate s n (ones mask) (erroredBits w ref mask)
    simp only [moveSlip]
    split
    · exact counts.trans (.loseLock ..)
    · exact counts.trans (.modChecker _ n fun _ => locked)

theorem TimingStep.receiveAt (h : receiveAt s n w = .ok t) : TimingStep s t := by
  unfold Machine.receiveAt at h
  split at h
  · cases h
    exact .refl s
  · exact .searchWord ‹_› h
  · split at h <;> cases h
    exact .verifyWord ‹_› ..
  · rename_i state
    split at h <;> cases h
    exact .lockedWord ((expected_config ‹_›).2.1.trans state) w

end

end Sys2Proof.Machine
end

section
/-!
PROOF. Every step keeps the checkers and the timers sound: words, slots, commands and line events in turn.
-/

namespace Sys2Proof.Machine

/-! ### Moves of a whole lane -/

/-- A change of a lane that keeps its checker and its timer sound and its open slice marked. -/
structure SoundMove (l k : LaneState) : Prop extends TimingMove l k where
  checker : CheckerSound l.checker → CheckerSound k.checker

/-- Every lane moves, if at all, by a `SoundMove`. -/
structure SoundStep (s t : State) : Prop where
  lane : ∀ m, SoundMove (s.lane m) (t.lane m)

theorem SoundMove.refl (l : LaneState) : SoundMove l l := ⟨.refl l, id⟩

/-- A change of a lane beside its timer, its gate line and its checker. -/
theorem SoundMove.beside {l k : LaneState} (timer : k.timer = l.timer) (gate : k.gateLine = l.gateLine)
    (checker : k.checker = l.checker) : SoundMove l k :=
  ⟨.beside timer gate checker, fun h => checker ▸ h⟩

/-- A walk reaches neither the timer, nor the gate line, nor the checker of its lane. -/
theorem WalkKept.sound {l k : LaneState} (h : WalkKept l k) : SoundMove l k :=
  .beside h.timer (by rw [h]) (by rw [h])

theorem SoundStep.trans {a b c : State} (h : SoundStep a b) (g : SoundStep b c) : SoundStep a c :=
  ⟨fun m => ⟨(h.lane m).toTimingMove.trans (g.lane m).toTimingMove, (g.lane m).checker ∘ (h.lane m).checker⟩⟩

/-- The lanes are as they were. -/
theorem SoundStep.still {s t : State} (h : ∀ m, t.lane m = s.lane m) : SoundStep s t :=
  ⟨fun m => by rw [h]; exact .refl _⟩

/-- Interval timing moves no checker. -/
theorem SoundStep.timing {s t : State} (timing : TimingStep s t) (kept : IntervalStep s t) : SoundStep s t :=
  ⟨fun m => ⟨timing.lane m, fun h => (kept.lane m).checker ▸ h⟩⟩

theorem SoundStep.modLane (s : State) (n : Lane) {f : LaneState → LaneState} (h : SoundMove (s.lane n) (f (s.lane n))) :
    SoundStep s (s.modLane n f) := by
  refine ⟨fun m => ?_⟩
  rw [State.modLane_lane]
  split
  · subst m; exact h
  · exact .refl _

/-- A change of a lane beside its timer, its gate line and its checker. -/
theorem SoundStep.beside (s : State) (n : Lane) {f : LaneState → LaneState}
    (timer : (f (s.lane n)).timer = (s.lane n).timer) (gate : (f (s.lane n)).gateLine = (s.lane n).gateLine)
    (checker : (f (s.lane n)).checker = (s.lane n).checker) : SoundStep s (s.modLane n f) :=
  .modLane s n (.beside timer gate checker)

/-- A change of lane n alone. -/
theorem SoundStep.own {s t : State} {n : Lane} (others : ∀ m, m ≠ n → t.lane m = s.lane m)
    (own : SoundMove (s.lane n) (t.lane n)) : SoundStep s t := by
  refine ⟨fun m => ?_⟩
  by_cases hm : m = n
  · subst m; exact own
  · rw [others m hm]; exact .refl _

/-! ### Words and slots -/

/-- A word at one checker. -/
theorem SoundStep.deliverTo {src : Source} {w : Word} {s t : State} {n : Lane} (h : deliverTo src w s n = .ok t) :
    SoundStep s t := by
  unfold Machine.deliverTo at h
  split at h
  · have word := WordStep.receiveAt h
    refine ⟨fun m => ⟨(TimingStep.receiveAt h).lane m, fun hs => ?_⟩⟩
    by_cases hm : m = n
    · subst m; exact word.move.sound hs
    · rw [word.others m hm]; exact hs
  · cases h
    exact .still fun _ => rfl

theorem SoundStep.deliver {src : Source} {w : Word} {s t : State} (h : deliver src w s = .ok t) : SoundStep s t := by
  obtain ⟨s0, s1, s2, h0, h1, h2, h3⟩ := deliver_ok h
  exact (((deliverTo h0).trans (deliverTo h1)).trans (deliverTo h2)).trans (deliverTo h3)

section
variable (s : State) (n : Lane)

theorem SoundStep.takeTrigger (active : (s.lane n).gen.state ≠ .stopped) : SoundStep s (takeTrigger s n).2 := by
  have slot := GenSlot.takeTrigger s n active
  exact .own (fun _ hm => takeTrigger_lane_ne hm s)
    (.beside (takeTrigger_timer s n) (slot.lane n).gateLine (slot.checkers n))

theorem SoundStep.placeWord (w : Word) : SoundStep s (placeWord s n w) := .beside s n rfl rfl rfl

theorem SoundStep.wordLimitIfReached : SoundStep s (wordLimitIfReached s n) :=
  .own (fun _ hm => wordLimitIfReached_lane_ne hm s) (WalkKept.wordLimitIfReached s n).sound

theorem SoundStep.pauseEnd : SoundStep s (s.modLane n pauseEndIfDue) := by
  refine .modLane s n ?_
  unfold pauseEndIfDue
  split
  · exact .beside rfl rfl rfl
  · exact .refl _

/-- A slot of a pause: a pause word used, and then the word limit and the pause's end (R48, R51). -/
theorem SoundStep.pausingSlot : SoundStep s (pausingSlot s n) := by
  rw [Machine.pausingSlot]
  refine SoundStep.trans (SoundStep.trans ?_ (.wordLimitIfReached _ n)) (.pauseEnd _ n)
  exact (SoundStep.beside s n rfl rfl rfl).trans (.beside _ n rfl rfl rfl)

/-- A slot of a run: its word on the bus, its flips credited, and the walk on (R46, R57, R70). -/
theorem SoundStep.running (w flips : Word) (used : InjectUnit) (prbs : BitVec 32) (step : Option Advance) :
    SoundStep s (afterPatternWord (emitted n w flips used prbs s) n step) := by
  have sent : SoundStep s (emitted n w flips used prbs s) := by
    refine ⟨fun m => .beside (emitted_timer ..) (LaneKept.emitted n m w flips used prbs s).gateLine ?_⟩
    rw [emitted_lane]
    split
    · subst m; exact creditLane_checker ..
    · exact creditLane_checker ..
  exact sent.trans (.own (fun _ hm => afterPatternWord_lane_ne hm ..) (WalkKept.afterPatternWord ..).sound)

theorem SoundStep.startOwed (p : Port) : SoundStep s (s.startOwed p) := .timing (.startOwed s p) (.startOwed s p)

end

theorem SoundStep.transmit {s t : State} {n : Lane} (h : transmit s n = .ok t) : SoundStep s t := by
  obtain ⟨w, u, hu, rfl | ⟨-, rfl⟩ | ⟨flips, used, prbs, step, -, rfl⟩⟩ := transmit_cases h
  · exact (SoundStep.placeWord s n w).trans (.deliver hu)
  · exact ((SoundStep.pausingSlot s n).trans (.placeWord _ n w)).trans (.deliver hu)
  · exact (SoundStep.running s n w flips used prbs step).trans (.deliver hu)

/-! ### Commands -/

/-- A segment replaced or made undefined reaches the plans alone (R34). -/
theorem SoundStep.invalidate (s : State) (i : Fin 64) (slot : SegSlot) :
    SoundStep s (invalidate (s.setSeg i slot) i) := by
  refine ⟨fun m => ?_⟩
  rw [invalidate_lane, State.setSeg_lane]
  split
  · exact .beside rfl rfl rfl
  · exact .refl _

/-- CHECK_START enters SEARCH from OFF: a checker that was outside LOCKED before (R82). -/
theorem SoundStep.startChecker {s : State} {n : Lane} (off : (s.lane n).checker.state = .off) :
    SoundStep s (startChecker s n) := by
  simp only [Machine.startChecker]
  refine (SoundStep.still fun m => State.mark_lane ..).trans (.modLane _ n ?_)
  rw [State.mark_lane]
  exact ⟨.checker rfl rfl fun locked => (by rw [off] at locked; cases locked), fun h => h.discarded .search⟩

/-- CHECK_STOP closes a running interval before it leaves LOCKED (R84, R126). -/
theorem SoundStep.stopChecker (s : State) (n : Lane) : SoundStep s (stopChecker s n) := by
  have stopped : ∀ t : State, (t.lane n).timer.state ≠ .run →
      SoundStep t ((t.unmark (.checker n)).modLane n fun l => l.modChecker fun c => discardReference c .off) :=
    fun t hno => by
    refine (SoundStep.still fun m => State.unmark_lane ..).trans (.modLane _ n ?_)
    rw [State.unmark_lane]
    exact ⟨.idle hno hno rfl, fun h => h.discarded .off⟩
  unfold Machine.stopChecker
  split
  · refine (SoundStep.timing (.closeAndStop s n .checkerStop) (.closeAndStop ..)).trans (stopped _ ?_)
    rw [closeAndStop, modLane_lane_self, setTimer_state]
    decide
  · exact stopped s ‹_›

/-- CHECK_CONFIG, taken in OFF (R80). -/
theorem SoundStep.configureChecker {s : State} {n : Lane} {plan v th mode : Byte} {cfg : CheckConfig}
    (config : checkConfigOfBytes plan v th mode = some cfg) (off : (s.lane n).checker.state = .off) :
    SoundStep s (s.modLane n (configureChecker cfg)) := by
  have checker : (Machine.configureChecker cfg (s.lane n)).checker = { (s.lane n).checker with config := cfg } := by
    unfold Machine.configureChecker
    split <;> rfl
  refine .modLane s n ⟨.checker ?_ ?_ fun locked => ?_, fun h => checker ▸ h.configured off config⟩
  · unfold Machine.configureChecker
    split <;> rfl
  · unfold Machine.configureChecker
    split <;> rfl
  · rw [off] at locked
    cases locked

/-- What the command of a frame does to checkers and timers. -/
theorem Taken.sound {f : Select} {c : Instr} {s u : State} (h : Taken f c s u) : SoundStep s u := by
  cases h with
  | reads | readsFree | reserve | release => exact .still fun _ => rfl
  | eventClear | eventEnable | holdoffSet | segCursor | wordCursor | resultRead =>
    exact .still fun _ => State.modPort_lane ..
  | portReset | wordWrite => exact .still fun m => (State.modPort_lane ..).trans rfl
  | segWrite args _ i sg =>
    exact (SoundStep.invalidate s i { s.seg i with record := some sg }).trans (.still fun _ => State.modPort_lane ..)
  | segClear b _ i => exact .invalidate s i { s.seg i with record := none }
  | planSet _ _ n | planCheck _ n => exact .beside s n rfl rfl rfl
  | laneStart _ n => exact (SoundStep.still fun m => State.mark_lane ..).trans (.beside _ n rfl rfl rfl)
  | laneTrigger _ n _ active => exact .takeTrigger s n active
  | laneHalt _ n => exact (SoundStep.still fun m => State.unmark_lane ..).trans (.beside _ n rfl rfl rfl)
  | injectSet _ _ n x =>
    exact (SoundStep.beside s n (f := setInjection x) rfl rfl rfl).trans (.still fun _ => State.useFree_lane ..)
  | injectTotalsClear _ n | sigClear _ n | routeSet _ _ n | totalsClear _ n => exact .beside s n rfl rfl rfl
  | checkConfig _ n _ _ _ _ _ _ _ config off => exact .configureChecker config off
  | checkStart _ n _ off => exact .startChecker off
  | checkStop _ n => exact .stopChecker s n
  | gateConfig _ _ n cfg _ _ stop =>
    have outside : (s.lane n).timer.state ≠ .run := by rw [stop]; decide
    exact (SoundStep.modLane s n (f := fun l => { l with timer := { l.timer with config := cfg } })
      ⟨.idle outside outside rfl, id⟩).trans (.still fun _ => State.useFree_lane ..)
  | gateArm _ n _ stop => exact .timing (.modLane s n (.armTimer stop)) (.modLane s n (.armTimer _))
  | gateStart _ n => exact .timing (.modLane s n (.startInterval ..)) (.modLane s n (.startInterval _))
  | gateRetrigger _ n => exact .timing (.closeAndRestart ..) (.closeAndRestart ..)
  | gateStop _ n => exact .timing (.stopTimer s n) (.stopTimer s n)
  | resultClear _ n => exact (SoundStep.beside s n rfl rfl rfl).trans (.still fun _ => State.modPorts_lane ..)

/-! ### Lines, buses and the timebase -/

/-- The reset values of R79 are sound. -/
theorem resetChecker_sound (n : Lane) : CheckerSound (Reset.checker n) := by
  unfold CheckerSound
  revert n
  decide

theorem SoundStep.deviceReset (s : State) (phase : ResetPhase) : SoundStep s (deviceResetState s phase) := by
  refine ⟨fun m => ?_⟩
  rw [deviceResetState_lane]
  have stop : Reset.timer.state ≠ .run := by decide
  exact ⟨.outside stop rfl, fun _ => resetChecker_sound m⟩

/-- A tick at every interval timer. -/
theorem timingStep_ticks (s : State) : TimingStep s (tickTimer (tickTimer (tickTimer (tickTimer s 0) 1) 2) 3) :=
  (((TimingStep.tickTimer s 0).trans (.tickTimer _ 1)).trans (.tickTimer _ 2)).trans (.tickTimer _ 3)

/-- What reaches the part by its lines, buses and timebase does to checkers and timers. -/
theorem LineNext.sound {c : Instr} {s u : State} (h : LineNext c s u) : SoundStep s u := by
  cases h with
  | deviceReset => exact .deviceReset ..
  | resetNReturnsHigh | noEdge => exact .still fun _ => rfl
  | trigLine n level => exact .beside s n rfl rfl rfl
  | trigger n level _ active =>
    exact (SoundStep.beside s n (f := fun l => { l with trigLine := level }) rfl rfl rfl).trans
      (.takeTrigger _ n (by simpa using active))
  | gateLine n level =>
    exact .timing (.modLane s n (.gateEdgeTaken level _)) (.modLane s n (.gateEdgeTaken level _))
  | transmit n _ _ slot => exact .transmit slot
  | pauseEnd n => exact .pauseEnd s n
  | wordLimit n => exact .wordLimitIfReached s n
  | receive m w _ _ word => exact .deliver word
  | tick =>
    exact (SoundStep.timing (timingStep_ticks s) (intervalStep_ticks s)).trans (.still fun _ => State.modPorts_lane ..)
  | sliceClose n => exact .timing (.modLane s n (.sliceCloseIfDue _)) (.modLane s n (.sliceCloseIfDue _))
  | intervalExpiry n => exact .timing (.intervalExpiryIfDue ..) (.intervalExpiryIfDue ..)
  | chainStart n => exact .timing (.modLane s n (.chainStartIfDue _)) (.modLane s n (.chainStartIfDue _))
  | holdoffExpiry p => exact .still fun _ => State.modPort_lane ..

/-! ### A step -/

/-- A property of every lane that its moves keep is kept by every step. -/
theorem step_keeps_lanes {P : LaneState → Prop} (keeps : ∀ {l k}, SoundMove l k → P l → P k) {s t : State}
    (h : step s = .next t) (hs : ∀ n, P (s.lane n)) : ∀ n, P (t.lane n) := by
  have moved : ∀ {a b : State}, SoundStep a b → (∀ n, P (a.lane n)) → ∀ n, P (b.lane n) := fun hab ha n =>
    keeps (hab.lane n) (ha n)
  exact step_keeps (P := fun s => ∀ n, P (s.lane n))
    (fun _ _ _ _ lanes => moved (.still fun m => by simp only [State.lane, lanes]))
    (fun s p => moved (.startOwed s p)) (fun _ _ _ _ taken => moved taken.sound) (fun _ _ _ line => moved line.sound) h hs

/-- Settles O51: each of the three is a property of a lane that every move of a lane keeps. -/
theorem checkersAndTimersStaySound : Obligations.CheckersAndTimersStaySound :=
  ⟨fun _ _ hs h => step_keeps_lanes (P := fun l => CheckerSound l.checker) (fun move => move.checker) h hs,
    fun _ _ h => ⟨step_keeps_lanes (P := fun l => TimerSound l.timer) (fun move => move.timer) h,
      step_keeps_lanes (P := MarkSound) (fun move => move.mark) h⟩⟩

end Sys2Proof.Machine
end

section
/-!
PROOF. Counts and their overflow (R101, R103, R105, R106, R108, R109, R111): what an addition leaves of a count, when a
word carries a lane's counts past a maximum, and what that raises.
-/

namespace Sys2Proof.Machine

/-! ### One addition (R108, R109) -/

section
variable {w : Nat} (mode : OverflowMode) (c : Counter w) (k : Nat)

/-- An addition passes the maximum when the sum does not fit the width. -/
theorem Counter.add_passed : (c.add mode k).2 = true ↔ 2 ^ w ≤ c.value.toNat + k := by
  unfold Counter.add
  split
  · rename_i fits
    exact iff_of_false Bool.false_ne_true (Nat.not_le.mpr fits)
  · rename_i past
    cases mode <;> exact iff_of_true rfl (Nat.not_lt.mp past)

/-- An addition of one errored word passes the maximum from the maximum alone. -/
theorem Counter.add_erroredWord_passed (e : Nat) :
    (c.add mode (erroredWord e)).2 = true ↔ 0 < e ∧ c.value = BitVec.allOnes w := by
  have hlt := c.value.isLt
  rw [Counter.add_passed, ← BitVec.toNat_inj, BitVec.toNat_allOnes, erroredWord]
  split <;> omega

/-- A sum that fits the width, under either mode. -/
theorem Counter.add_fits {c : Counter w} {k : Nat} (fits : c.value.toNat + k < 2 ^ w) :
    c.add mode k = ({ c with value := BitVec.ofNat w (c.value.toNat + k) }, false) :=
  if_pos fits

/-- R108: past the maximum in SATURATE mode. -/
theorem Counter.add_saturate {c : Counter w} {k : Nat} (past : 2 ^ w ≤ c.value.toNat + k) :
    c.add .saturate k = ({ c with value := BitVec.allOnes w, saturated := true }, true) :=
  if_neg (Nat.not_lt.mpr past)

/-- R109: past the maximum in WRAP mode. -/
theorem Counter.add_wrap {c : Counter w} {k : Nat} (past : 2 ^ w ≤ c.value.toNat + k) :
    c.add .wrap k =
      ({ c with value := BitVec.ofNat w (c.value.toNat + k - 2 ^ w), tally := saturatingAdd c.tally 1 }, true) :=
  if_neg (Nat.not_lt.mpr past)

/-- A count that does not wrap holds the sum, or its maximum. -/
theorem Counter.add_toNat (unwrapped : ((c.add mode k).2 && mode == .wrap) = false) :
    (c.add mode k).1.value.toNat = min (c.value.toNat + k) (2 ^ w - 1) := by
  by_cases fits : c.value.toNat + k < 2 ^ w
  · rw [Counter.add_fits mode fits, BitVec.toNat_ofNat, Nat.mod_eq_of_lt fits]
    omega
  · have past := Nat.not_lt.mp fits
    cases mode with
    | saturate =>
      rw [Counter.add_saturate past, BitVec.toNat_allOnes]
      omega
    | wrap =>
      rw [Counter.add_wrap past] at unwrapped
      cases unwrapped

end

/-! ### The counts of one word (R101, R103, R105) -/

/-- A word carries a run total past its maximum. -/
theorem RunTotals.addWord_passed (mode : OverflowMode) (t : RunTotals) (c e : Nat) :
    (t.addWord mode c e).2 = true ↔ 2 ^ 56 ≤ t.compared.value.toNat + c ∨ 2 ^ 48 ≤ t.errored.value.toNat + e ∨
      (0 < e ∧ t.words.value = BitVec.allOnes 40) := by
  simp only [RunTotals.addWord, Bool.or_eq_true, or_assoc]
  rw [Counter.add_passed, Counter.add_passed, Counter.add_erroredWord_passed]

/-- A word carries an interval count past its maximum. -/
theorem IntervalAcc.addWord_passed (mode : OverflowMode) (a : IntervalAcc) (c e : Nat) :
    (a.addWord mode c e).2 = true ↔ 2 ^ 48 ≤ a.compared.value.toNat + c ∨ 2 ^ 40 ≤ a.errored.value.toNat + e ∨
      (0 < e ∧ a.words.value = BitVec.allOnes 32) := by
  simp only [IntervalAcc.addWord, Bool.or_eq_true, or_assoc]
  rw [Counter.add_passed, Counter.add_passed, Counter.add_erroredWord_passed]

/-! ### ACCUM_LIMIT (R111) -/

/-- An event that new counts raise when one has passed its maximum under a clear latch. -/
theorem raisedIf_latch (passed latch : Bool) (e : Event) (s : State) :
    raisedIf (passed && !latch) e s = (if passed = true ∧ latch = false then withEvent e else id) s := by
  cases passed <;> cases latch <;> rfl

/-- An event that is raised is pending on both ports. -/
theorem raisedIf_isPending {due : Bool} (h : due = true) (n : Lane) (s : State) (p : Port) :
    ((raisedIf due (.accumLimit n) s).port p).view.pending.getLsbD (6 * n.val + 5) = true := by
  subst h
  exact State.raise_isPending s (.accumLimit n) p (by simp only [Event.bit]; omega)

/-- A lane with the counts of a word, and the latches that they set (R102 steps 1 and 2). -/
def LaneState.withWord (l : LaneState) (c e : Nat) : LaneState :=
  if counting l then
    (l.withRun (l.acc.run.addWord l.checker.config.overflow c e)).withInterval
      (l.acc.interval.addWord l.checker.config.overflow c e)
  else l.withRun (l.acc.run.addWord l.checker.config.overflow c e)

/-- Whether the counts of a word raise ACCUM_LIMIT on a lane. -/
def LaneState.limitDue (l : LaneState) (c e : Nat) : Bool :=
  ((l.acc.run.addWord l.checker.config.overflow c e).2 && !l.acc.runLatch) ||
    (counting l && (l.acc.interval.addWord l.checker.config.overflow c e).2 && !l.acc.intervalLatch)

/-- The counts of a word: those of its lane, and ACCUM_LIMIT when they raise it. -/
theorem accumulated_eq (n : Lane) (c e : Nat) (s : State) : accumulated n c e s =
    raisedIf ((s.lane n).limitDue c e) (.accumLimit n) (s.setLane n ((s.lane n).withWord c e)) := by
  unfold accumulated LaneState.withWord LaneState.limitDue
  cases hc : counting (s.lane n) with
  | true =>
    simp only [← nextOffset_eq, hc, Bool.true_and, if_true]
    rfl
  | false =>
    simp only [hc, Bool.false_and, Bool.or_false, Bool.false_eq_true, if_false]
    rfl

theorem accumulated_lane (n m : Lane) (c e : Nat) (s : State) :
    (accumulated n c e s).lane m = if m = n then (s.lane n).withWord c e else s.lane m := by
  rw [accumulated_eq, raisedIf_lane, State.setLane_lane]

theorem withWord_runLatch (l : LaneState) (c e : Nat) : (l.withWord c e).acc.runLatch =
    (l.acc.runLatch || (l.acc.run.addWord l.checker.config.overflow c e).2) := by
  unfold LaneState.withWord
  split <;> rfl

theorem withWord_intervalLatch {l : LaneState} (count : counting l = true) (c e : Nat) :
    (l.withWord c e).acc.intervalLatch =
      (l.acc.intervalLatch || (l.acc.interval.addWord l.checker.config.overflow c e).2) := by
  rw [LaneState.withWord, if_pos count]
  rfl

section
variable {s : State} {n : Lane} {c e : Nat}

/-- A run total carried past its maximum under a clear latch raises ACCUM_LIMIT and sets the latch. -/
theorem accumulated_run_passed (clear : (s.lane n).acc.runLatch = false)
    (passed : ((s.lane n).acc.run.addWord (s.lane n).checker.config.overflow c e).2 = true) (p : Port) :
    ((accumulated n c e s).port p).view.pending.getLsbD (6 * n.val + 5) = true ∧
      ((accumulated n c e s).lane n).acc.runLatch = true := by
  have due : (s.lane n).limitDue c e = true := by
    simp only [LaneState.limitDue, clear, passed, Bool.not_false, Bool.and_self, Bool.true_or]
  constructor
  · rw [accumulated_eq]
    exact raisedIf_isPending due n _ p
  · rw [accumulated_lane, if_pos rfl, withWord_runLatch, passed, Bool.or_true]

/-- An interval count carried past its maximum under a clear latch, when the interval counts, raises ACCUM_LIMIT and sets
the latch. -/
theorem accumulated_interval_passed (count : counting (s.lane n) = true)
    (clear : (s.lane n).acc.intervalLatch = false)
    (passed : ((s.lane n).acc.interval.addWord (s.lane n).checker.config.overflow c e).2 = true) (p : Port) :
    ((accumulated n c e s).port p).view.pending.getLsbD (6 * n.val + 5) = true ∧
      ((accumulated n c e s).lane n).acc.intervalLatch = true := by
  have due : (s.lane n).limitDue c e = true := by
    simp only [LaneState.limitDue, count, clear, passed, Bool.not_false, Bool.and_self, Bool.or_true]
  constructor
  · rw [accumulated_eq]
    exact raisedIf_isPending due n _ p
  · rw [accumulated_lane, if_pos rfl, withWord_intervalLatch count, passed, Bool.or_true]

/-- Under set latches nothing is raised, nor by an interval that does not count. -/
theorem accumulated_port_of_latched (run : (s.lane n).acc.runLatch = true)
    (interval : (s.lane n).acc.intervalLatch = true ∨ counting (s.lane n) = false) (p : Port) :
    (accumulated n c e s).port p = s.port p := by
  have quiet : (s.lane n).limitDue c e = false := by
    rcases interval with h | h <;>
      simp only [LaneState.limitDue, run, h, Bool.not_true, Bool.and_false, Bool.false_and, Bool.or_self]
  rw [accumulated_eq, quiet]
  exact State.setLane_port ..

end

/-- Settles O36: each addition by whether the sum fits, and ACCUM_LIMIT from the latch that a passed maximum finds. -/
theorem countsOverflowByMode : Obligations.CountsOverflowByMode := by
  refine ⟨fun w k c hw hk => ⟨fun within mode => ?_, fun past => ?_⟩, fun s n run passed => ?_, fun s n ivl passed => ?_,
    fun s n c e p _ _ => ⟨fun clear past => ?_, fun count clear past => ?_, fun run interval => ?_⟩⟩
  · have fits : c.value.toNat + k < 2 ^ w := by have := Nat.two_pow_pos w; omega
    exact ⟨_, (BitVec.toNat_ofNat ..).trans (Nat.mod_eq_of_lt fits), Counter.add_fits mode fits⟩
  · have wide : 2 ^ 7 ≤ 2 ^ w := Nat.pow_le_pow_right Nat.two_pos hw
    have hlt := c.value.isLt
    have past : 2 ^ w ≤ c.value.toNat + k := by omega
    have rest : c.value.toNat + k - 2 ^ w < 2 ^ w := by omega
    exact ⟨⟨_, BitVec.toNat_allOnes, Counter.add_saturate past⟩,
      _, _, (BitVec.toNat_ofNat ..).trans (Nat.mod_eq_of_lt rest), saturatingAdd_toNat c.tally 1, Counter.add_wrap past⟩
  · rw [setRun_eq, raisedIf_latch]
    rfl
  · rw [setInterval_eq, raisedIf_latch]
    rfl
  · exact accumulated_run_passed clear ((RunTotals.addWord_passed ..).mpr past) p
  · exact accumulated_interval_passed count clear ((IntervalAcc.addWord_passed ..).mpr past) p
  · exact accumulated_port_of_latched run interval p

end Sys2Proof.Machine
end

section
/-!
PROOF. Every step keeps errored counts within compared counts (R106, R108, R133): what each operation on a lane leaves of
its counts, and then words, slots, commands and line events in turn.
-/

namespace Sys2Proof.Machine

/-! ### The two parts of a lane's counts -/

/-- What R106, R108 and R133 promise of the interval and its slice, under an overflow mode. -/
structure IntervalSound (mode : OverflowMode) (a : IntervalAcc) : Prop where
  slice : a.sliceErrored.toNat ≤ a.sliceCompared.toNat
  within : mode = .saturate → a.errored.value.toNat ≤ a.compared.value.toNat
  offset : ∀ v, a.firstError = some v → v.toNat < a.compared.value.toNat

/-- What R108 promises of the run totals, under an overflow mode. -/
def RunSound (mode : OverflowMode) (t : RunTotals) : Prop :=
  mode = .saturate → t.errored.value.toNat ≤ t.compared.value.toNat

theorem countsSound_iff {l : LaneState} : CountsSound l ↔
    IntervalSound l.checker.config.overflow l.acc.interval ∧ RunSound l.checker.config.overflow l.acc.run :=
  ⟨fun ⟨slice, within, offset⟩ => ⟨⟨slice, fun m => (within m).1, offset⟩, fun m => (within m).2⟩,
    fun ⟨interval, run⟩ => ⟨interval.slice, fun m => ⟨interval.within m, run m⟩, interval.offset⟩⟩

theorem IntervalSound.reset (mode : OverflowMode) : IntervalSound mode Reset.intervalAcc :=
  ⟨le_rfl, fun _ => Nat.zero_le _, fun _ h => by cases h⟩

theorem RunSound.reset (mode : OverflowMode) : RunSound mode Reset.runTotals := fun _ => Nat.zero_le _

/-! ### The counts of one word (R102, R103, R105, R106) -/

/-- In SATURATE mode nothing wraps, so a count holds the sum or its maximum. -/
theorem Counter.add_saturate_toNat {w : Nat} (c : Counter w) (k : Nat) :
    (c.add .saturate k).1.value.toNat = min (c.value.toNat + k) (2 ^ w - 1) :=
  Counter.add_toNat .saturate c k (Bool.and_false _)

theorem RunSound.addWord {mode : OverflowMode} {t : RunTotals} (h : RunSound mode t) {c e : Nat} (hle : e ≤ c) :
    RunSound mode (t.addWord mode c e).1 := by
  rintro rfl
  have within := h rfl
  simp only [RunTotals.addWord, Counter.add_saturate_toNat]
  omega

/-- A first-error offset that a word leaves was there before, or is where the compared bits stood short of their
maximum; either way the compared bits have not wrapped. -/
theorem nextOffset_eq_some {a : IntervalAcc} {e : Nat} {wrapped : Bool} {v : BitVec 48}
    (h : nextOffset a e wrapped = some v) : wrapped = false ∧
      (a.firstError = some v ∨ (0 < e ∧ v = a.compared.value ∧ a.compared.value ≠ BitVec.allOnes 48)) := by
  cases wrapped with
  | true => cases h
  | false =>
    refine ⟨rfl, ?_⟩
    simp only [nextOffset, Bool.false_eq_true, if_false] at h
    split at h
    · exact .inl (‹a.firstError = _›.trans h)
    · split at h <;> cases h
      rename_i isOpen
      simp only [offsetOpen, Bool.and_eq_true, decide_eq_true_eq, bne_iff_ne] at isOpen
      obtain ⟨errored, -, below⟩ := isOpen
      exact .inr ⟨errored, rfl, below⟩

theorem IntervalSound.addWord {mode : OverflowMode} {a : IntervalAcc} (h : IntervalSound mode a) {c e : Nat}
    (hle : e ≤ c) : IntervalSound mode (a.addWord mode c e).1 where
  slice := by
    have slice := h.slice
    simp only [IntervalAcc.addWord, saturatingAdd_toNat]
    omega
  within := by
    rintro rfl
    have within := h.within rfl
    simp only [IntervalAcc.addWord, Counter.add_saturate_toNat]
    omega
  offset v hv := by
    obtain ⟨unwrapped, hoffset⟩ := nextOffset_eq_some hv
    have hlt := a.compared.value.isLt
    simp only [IntervalAcc.addWord, Counter.add_toNat _ _ _ unwrapped]
    rcases hoffset with hold | ⟨errored, rfl, below⟩
    · have := h.offset v hold
      omega
    · rw [ne_eq, ← BitVec.toNat_inj, BitVec.toNat_allOnes] at below
      omega

/-! ### Changes of a lane -/

section
variable {l k : LaneState}

/-- A change of a lane beside its counts and its overflow mode. -/
theorem CountsSound.congr (h : CountsSound l) (acc : k.acc = l.acc)
    (config : k.checker.config = l.checker.config) : CountsSound k := by
  unfold CountsSound
  rw [acc, config]
  exact h

/-- The interval's counts cleared, the run totals kept (R107). -/
theorem CountsSound.cleared (h : CountsSound l) (interval : k.acc.interval = Reset.intervalAcc)
    (run : k.acc.run = l.acc.run) (config : k.checker.config = l.checker.config) : CountsSound k :=
  countsSound_iff.mpr ⟨interval ▸ .reset _, by rw [run, config]; exact (countsSound_iff.mp h).2⟩

/-- All counts cleared (R104, R107), whatever the overflow mode. -/
theorem CountsSound.zeroed (interval : k.acc.interval = Reset.intervalAcc) (run : k.acc.run = Reset.runTotals) :
    CountsSound k :=
  countsSound_iff.mpr ⟨interval ▸ .reset _, run ▸ .reset _⟩

theorem CountsSound.startInterval (h : CountsSound l) : CountsSound (startInterval l) := h.cleared rfl rfl rfl

/-- A new slice begins with no bits counted (R131). -/
theorem CountsSound.sliceCloseIfDue (h : CountsSound l) : CountsSound (sliceCloseIfDue l) := by
  unfold Machine.sliceCloseIfDue
  split
  · exact ⟨le_rfl, h.2⟩
  · exact h

theorem CountsSound.chainStartIfDue (h : CountsSound l) : CountsSound (chainStartIfDue l) := by
  unfold Machine.chainStartIfDue
  split
  · exact h.startInterval
  · exact h

theorem CountsSound.armTimer (h : CountsSound l) : CountsSound (armTimer l) := by
  unfold Machine.armTimer
  split
  · exact h.startInterval
  · exact h

theorem CountsSound.gateEdgeTaken (level : Level) (h : CountsSound l) : CountsSound (gateEdgeTaken level l) := by
  simp only [Machine.gateEdgeTaken]
  split
  · exact CountsSound.startInterval (l := { l with gateLine := level }) h
  · exact h

theorem CountsSound.takeOffer (n : Lane) (sender : Option Port) (h : CountsSound l) :
    CountsSound (takeOffer n sender l) := by
  rcases takeOffer_cases n sender l with he | ⟨-, -, he⟩ <;> rw [he] <;> exact h

/-- A credit reaches the injected bits alone (R70). -/
theorem CountsSound.creditLane (n : Lane) (flips : Nat) (h : CountsSound l) : CountsSound (creditLane n flips l) := by
  unfold Machine.creditLane
  split
  · exact h
  · exact h

/-- A word's counts, of which no more bits are errored than are compared (R101). -/
theorem CountsSound.withWord (h : CountsSound l) {c e : Nat} (hle : e ≤ c) : CountsSound (l.withWord c e) := by
  obtain ⟨interval, run⟩ := countsSound_iff.mp h
  unfold LaneState.withWord
  split
  · exact countsSound_iff.mpr ⟨interval.addWord hle, run.addWord hle⟩
  · exact countsSound_iff.mpr ⟨interval, run.addWord hle⟩

/-- A gain is counted beside the bits (R98). -/
theorem CountsSound.withGain (h : CountsSound l) : CountsSound l.withGain := h

/-- A loss is counted beside the bits (R97). -/
theorem CountsSound.withLoss (h : CountsSound l) : CountsSound l.withLoss := h

/-- CHECK_CONFIG clears all counts when it changes the overflow mode (R80). -/
theorem CountsSound.configureChecker (cfg : CheckConfig) (h : CountsSound l) : CountsSound (configureChecker cfg l) := by
  simp only [Machine.configureChecker]
  split
  · rename_i mode
    unfold CountsSound at h
    rw [mode] at h
    exact h
  · exact .zeroed rfl rfl

end

/-! ### Changes of the part -/

section
variable {s t : State} {n : Lane}

/-- The lanes are as they were. -/
theorem AllCountsSound.still (h : AllCountsSound s) (lanes : ∀ m, t.lane m = s.lane m) : AllCountsSound t :=
  fun m => lanes m ▸ h m

/-- A change of lane n alone. -/
theorem AllCountsSound.own (h : AllCountsSound s) (others : ∀ m, m ≠ n → t.lane m = s.lane m)
    (own : CountsSound (t.lane n)) : AllCountsSound t := fun m => by
  by_cases hm : m = n
  · subst m; exact own
  · exact others m hm ▸ h m

theorem AllCountsSound.modLane {f : LaneState → LaneState} (h : AllCountsSound s)
    (own : CountsSound (f (s.lane n))) : AllCountsSound (s.modLane n f) :=
  h.own (fun _ hm => modLane_lane_ne hm ..) (by rw [modLane_lane_self]; exact own)

/-- A change of lane n beside its counts and its overflow mode. -/
theorem AllCountsSound.beside {f : LaneState → LaneState} (h : AllCountsSound s)
    (acc : (f (s.lane n)).acc = (s.lane n).acc)
    (config : (f (s.lane n)).checker.config = (s.lane n).checker.config) : AllCountsSound (s.modLane n f) :=
  h.modLane ((h n).congr acc config)

/-- A change of a checker that keeps its configuration. -/
theorem AllCountsSound.modChecker {f : Checker → Checker} (h : AllCountsSound s)
    (config : (f (s.lane n).checker).config = (s.lane n).checker.config) :
    AllCountsSound (s.modLane n fun l => l.modChecker f) :=
  h.beside rfl config

/-! ### Closes and units -/

/-- A close whose own lane goes on as `f` says: its interval's counts are cleared, and the other lanes are offered it. -/
theorem AllCountsSound.close (h : AllCountsSound s) (cause : CloseCause) (sender : Option Port)
    {f : LaneState → LaneState} (own : ∀ {l}, CountsSound l → CountsSound (f l)) :
    AllCountsSound ((closeInterval s n cause sender).modLane n f) := fun m => by
  by_cases hm : m = n
  · subst m
    obtain ⟨made, ring, offer, hclose⟩ := closeInterval_lane_self s n cause sender
    rw [modLane_lane_self, hclose]
    exact own ((h n).cleared rfl rfl rfl)
  · rw [modLane_lane_ne hm, closeInterval_lane_ne hm]
    split
    · exact (h m).takeOffer ..
    · exact h m

theorem AllCountsSound.closeAndStop (h : AllCountsSound s) (cause : CloseCause) :
    AllCountsSound (closeAndStop s n cause) :=
  h.close cause none (f := fun l => l.setTimer .stop) id

theorem AllCountsSound.closeAndRestart (h : AllCountsSound s) (cause : CloseCause) (sender : Option Port) :
    AllCountsSound (closeAndRestart s n cause sender) :=
  h.close cause sender .startInterval

theorem AllCountsSound.intervalExpiryIfDue (h : AllCountsSound s) : AllCountsSound (intervalExpiryIfDue s n) := by
  simp only [Machine.intervalExpiryIfDue]
  split
  · split
    · exact h.closeAndStop _
    · exact h.closeAndRestart _ _
  · exact h

theorem AllCountsSound.countUnit (h : AllCountsSound s) : AllCountsSound (countUnit s n) := by
  have taken : AllCountsSound (s.modLane n fun l => Machine.sliceCloseIfDue l.withUnit) :=
    h.modLane (CountsSound.sliceCloseIfDue (l := (s.lane n).withUnit) (h n))
  exact taken.intervalExpiryIfDue

theorem AllCountsSound.tickTimer (h : AllCountsSound s) : AllCountsSound (tickTimer s n) := by
  unfold Machine.tickTimer
  split
  · exact h.countUnit
  · exact h

theorem AllCountsSound.stopTimer (h : AllCountsSound s) : AllCountsSound (stopTimer s n) := by
  unfold Machine.stopTimer
  split
  · exact h
  · exact h.modLane (h n)
  · exact h.closeAndStop _

theorem AllCountsSound.startOwed (h : AllCountsSound s) (p : Port) : AllCountsSound (s.startOwed p) := fun m => by
  rw [State.startOwed_lane]
  rcases startOwedAt_cases p (s.lane m) with he | ⟨-, -, -, he⟩ <;> rw [he]
  · exact h m
  · exact (h m).startInterval

/-! ### Words -/

theorem AllCountsSound.accumulate (h : AllCountsSound s) {c e : Nat} (hle : e ≤ c) :
    AllCountsSound (accumulatedUnit (accumulateInterval (accumulateRun s n c e) n c e) n) := by
  have counted : AllCountsSound (accumulated n c e s) := fun m => by
    rw [accumulated_lane]
    split
    · exact (h n).withWord hle
    · exact h m
  rw [accumulate_eq]
  unfold accumulatedUnit
  split
  · exact counted.countUnit
  · exact counted

/-- New run totals of lane n. -/
theorem AllCountsSound.setRun (h : AllCountsSound s) {run : RunTotals × Bool}
    (own : RunSound (s.lane n).checker.config.overflow run.1) : AllCountsSound (setRun s n run) := fun m => by
  rw [setRun_lane]
  split
  · exact countsSound_iff.mpr ⟨(countsSound_iff.mp (h n)).1, own⟩
  · exact h m

theorem AllCountsSound.addGain (h : AllCountsSound s) (mode : OverflowMode) :
    AllCountsSound (Machine.setRun s n ((s.lane n).acc.run.addGain mode)) :=
  h.setRun (countsSound_iff.mp (h n)).2

theorem AllCountsSound.addLoss (h : AllCountsSound s) (mode : OverflowMode) :
    AllCountsSound (Machine.setRun s n ((s.lane n).acc.run.addLoss mode)) :=
  h.setRun (countsSound_iff.mp (h n)).2

/-- A gain of lock is counted beside the bits (R98). -/
theorem AllCountsSound.gainLock (h : AllCountsSound s) {c : Checker} (config : c.config = (s.lane n).checker.config) :
    AllCountsSound (gainLock s n c) := by
  have locked : AllCountsSound (s.modLane n fun l => l.modChecker fun _ =>
      { c with state := .locked, progress := 0, slip := 0 }) := h.modChecker config
  simp only [Machine.gainLock, ← withGain_eq]
  exact ((locked.addGain _).modLane (locked.addGain _ n).withGain).still fun _ => rfl

/-- A loss of lock is counted beside the bits (R97). -/
theorem AllCountsSound.loseLock (h : AllCountsSound s) : AllCountsSound (loseLock s n) := by
  have left : AllCountsSound (s.modLane n fun l => l.modChecker fun c => discardReference c .search) :=
    h.modChecker rfl
  simp only [Machine.loseLock, ← withLoss_eq]
  exact ((left.addLoss _).modLane (left.addLoss _ n).withLoss).still fun _ => rfl

theorem AllCountsSound.searchWord {w : Word} (h : AllCountsSound s) (ht : searchWord s n w = .ok t) :
    AllCountsSound t := by
  simp only [Machine.searchWord] at ht
  split at ht
  · split at ht <;> cases ht
    split
    · exact h.modChecker rfl
    · exact h
  · split at ht
    · cases ht
    · split at ht <;> cases ht
      · exact h
      · exact h.modChecker rfl

section
variable {x : Expected}

theorem AllCountsSound.verifyWord (h : AllCountsSound s) (config : x.advanced.config = (s.lane n).checker.config)
    (w : Word) : AllCountsSound (verifyWord s n x w) := by
  unfold Machine.verifyWord
  split
  · exact h.modChecker config
  · split
    · split
      · exact h.modChecker config
      · exact h.gainLock config
    · exact h.modChecker rfl

theorem AllCountsSound.lockedWord (h : AllCountsSound s) (config : x.advanced.config = (s.lane n).checker.config)
    (w : Word) : AllCountsSound (lockedWord s n x w) := by
  unfold Machine.lockedWord
  split
  · exact h.modChecker config
  · rename_i ref mask _
    have counted := h.accumulate (n := n) (erroredBits_le w ref mask)
    have checker := ((IntervalStep.accumulate s n (ones mask) (erroredBits w ref mask)).lane n).checker
    simp only [moveSlip]
    split
    · exact counted.loseLock
    · exact counted.modChecker (by rw [checker]; exact config)

end

theorem AllCountsSound.deliverTo {src : Source} {w : Word} (h : AllCountsSound s)
    (ht : deliverTo src w s n = .ok t) : AllCountsSound t := by
  simp only [Machine.deliverTo, receiveAt] at ht
  split at ht
  · split at ht
    · cases ht
      exact h
    · exact h.searchWord ht
    · split at ht <;> cases ht
      exact h.verifyWord (expected_config ‹_›).1 w
    · split at ht <;> cases ht
      exact h.lockedWord (expected_config ‹_›).1 w
  · cases ht
    exact h

theorem AllCountsSound.deliver {src : Source} {w : Word} (h : AllCountsSound s) (ht : deliver src w s = .ok t) :
    AllCountsSound t := by
  obtain ⟨s0, s1, s2, h0, h1, h2, h3⟩ := deliver_ok ht
  exact (((h.deliverTo h0).deliverTo h1).deliverTo h2).deliverTo h3

/-! ### Slots -/

theorem WalkKept.counts {l k : LaneState} (walk : WalkKept l k) (h : CountsSound l) : CountsSound k :=
  h.congr (by rw [walk]) (by rw [walk])

theorem takeTrigger_acc (s : State) (n : Lane) : ((takeTrigger s n).2.lane n).acc = (s.lane n).acc := by
  unfold takeTrigger
  split
  · rw [beginRun, modLane_lane_self]
  · split
    · rfl
    · rw [modLane_lane_self, LaneState.modGen]

theorem AllCountsSound.takeTrigger (h : AllCountsSound s) (active : (s.lane n).gen.state ≠ .stopped) :
    AllCountsSound (takeTrigger s n).2 :=
  h.own (fun _ hm => takeTrigger_lane_ne hm s)
    ((h n).congr (takeTrigger_acc s n) (congrArg Checker.config ((GenSlot.takeTrigger s n active).checkers n)))

theorem AllCountsSound.wordLimitIfReached (h : AllCountsSound s) : AllCountsSound (wordLimitIfReached s n) :=
  h.own (fun _ hm => wordLimitIfReached_lane_ne hm s) ((WalkKept.wordLimitIfReached s n).counts (h n))

theorem AllCountsSound.pauseEnd (h : AllCountsSound s) : AllCountsSound (s.modLane n pauseEndIfDue) := by
  refine h.modLane ?_
  unfold pauseEndIfDue
  split
  · exact h n
  · exact h n

/-- A slot of a pause: a pause word used, and then the word limit and the pause's end (R48, R51). -/
theorem AllCountsSound.pausingSlot (h : AllCountsSound s) : AllCountsSound (pausingSlot s n) := by
  rw [pausingSlot_eq]
  have used : AllCountsSound (s.modLane n LaneState.pauseWordUsed) := h.modLane (h n)
  exact used.wordLimitIfReached.pauseEnd

/-- A slot of a run: its word on the bus, its flips credited, and the walk on (R46, R57, R70). -/
theorem AllCountsSound.running (h : AllCountsSound s) (w flips : Word) (used : InjectUnit) (prbs : BitVec 32)
    (step : Option Advance) : AllCountsSound (afterPatternWord (emitted n w flips used prbs s) n step) := by
  have sent : AllCountsSound (emitted n w flips used prbs s) := fun m => by
    rw [emitted_lane]
    split
    · exact (h n).creditLane n (ones flips)
    · exact (h m).creditLane n (ones flips)
  exact sent.own (fun _ hm => afterPatternWord_lane_ne hm ..) ((WalkKept.afterPatternWord ..).counts (sent n))

theorem AllCountsSound.transmit (h : AllCountsSound s) (ht : transmit s n = .ok t) : AllCountsSound t := by
  have placed : ∀ {u : State}, AllCountsSound u → ∀ w, AllCountsSound (placeWord u n w) := fun hu _ => hu.modLane (hu n)
  obtain ⟨w, u, hu, rfl | ⟨-, rfl⟩ | ⟨flips, used, prbs, step, -, rfl⟩⟩ := transmit_cases ht
  · exact (placed h w).deliver hu
  · exact (placed h.pausingSlot w).deliver hu
  · exact (h.running w flips used prbs step).deliver hu

/-! ### Commands, lines and the timebase -/

/-- A segment replaced or made undefined reaches the plans alone (R34). -/
theorem AllCountsSound.invalidate (h : AllCountsSound s) (i : Fin 64) (slot : SegSlot) :
    AllCountsSound (invalidate (s.setSeg i slot) i) := fun m => by
  rw [invalidate_lane, State.setSeg_lane]
  split
  · exact h m
  · exact h m

/-- CHECK_STOP closes a running interval (R84, R126). -/
theorem AllCountsSound.stopChecker (h : AllCountsSound s) : AllCountsSound (stopChecker s n) := by
  have stopped : ∀ {u : State}, AllCountsSound u → AllCountsSound
      ((u.unmark (.checker n)).modLane n fun l => l.modChecker fun c => discardReference c .off) := fun hu =>
    (hu.still fun m => State.unmark_lane ..).modChecker rfl
  unfold Machine.stopChecker
  split
  · exact stopped (h.closeAndStop _)
  · exact stopped h

/-- What the command of a frame leaves of the counts. -/
theorem Taken.counts {f : Select} {c : Instr} (taken : Taken f c s t) (h : AllCountsSound s) : AllCountsSound t := by
  cases taken with
  | reads | readsFree | reserve | release => exact h.still fun _ => rfl
  | eventClear | eventEnable | holdoffSet | segCursor | wordCursor | resultRead =>
    exact h.still fun _ => State.modPort_lane ..
  | portReset | wordWrite => exact h.still fun _ => (State.modPort_lane ..).trans rfl
  | segWrite args _ i sg => exact (h.invalidate i { s.seg i with record := some sg }).still fun _ => State.modPort_lane ..
  | segClear b _ i => exact h.invalidate i { s.seg i with record := none }
  | planSet _ _ n | planCheck _ n | injectTotalsClear _ n | sigClear _ n | routeSet _ _ n => exact h.beside rfl rfl
  | laneStart _ n => exact (h.still fun _ => State.mark_lane ..).beside rfl rfl
  | laneTrigger _ n _ active => exact h.takeTrigger active
  | laneHalt _ n => exact (h.still fun _ => State.unmark_lane ..).beside rfl rfl
  | injectSet _ _ n x => exact (h.beside (f := setInjection x) rfl rfl).still fun _ => State.useFree_lane ..
  | totalsClear _ n =>
    refine h.modLane (countsSound_iff.mpr ⟨?_, .reset _⟩)
    exact (countsSound_iff.mp (h n)).1
  | checkConfig _ n _ _ _ _ _ cfg => exact h.modLane ((h n).configureChecker cfg)
  | checkStart _ n => exact (h.still fun _ => State.mark_lane ..).modLane (.zeroed rfl rfl)
  | checkStop _ n => exact h.stopChecker
  | gateConfig _ _ n cfg =>
    exact (h.beside (f := fun l => { l with timer := { l.timer with config := cfg } }) rfl rfl).still fun _ =>
      State.useFree_lane ..
  | gateArm _ n => exact h.modLane (h n).armTimer
  | gateStart _ n => exact h.modLane (h n).startInterval
  | gateRetrigger _ n => exact h.closeAndRestart _ _
  | gateStop _ n => exact h.stopTimer
  | resultClear _ n => exact (h.beside rfl rfl).still fun _ => State.modPorts_lane ..

/-- What reaches the part by its lines, buses and timebase leaves of the counts. -/
theorem LineNext.counts {c : Instr} (line : LineNext c s t) (h : AllCountsSound s) : AllCountsSound t := by
  cases line with
  | deviceReset => exact fun m => deviceResetState_lane s .held m ▸ .zeroed rfl rfl
  | resetNReturnsHigh | noEdge => exact h.still fun _ => rfl
  | trigLine n level => exact h.beside rfl rfl
  | trigger n level _ active =>
    exact (h.beside (f := fun l => { l with trigLine := level }) rfl rfl).takeTrigger (by simpa using active)
  | gateLine n level => exact h.modLane ((h n).gateEdgeTaken level)
  | transmit n _ _ slot => exact h.transmit slot
  | pauseEnd n => exact h.pauseEnd
  | wordLimit n => exact h.wordLimitIfReached
  | receive m w _ _ word => exact h.deliver word
  | tick => exact h.tickTimer.tickTimer.tickTimer.tickTimer.still fun _ => State.modPorts_lane ..
  | sliceClose n => exact h.modLane (h n).sliceCloseIfDue
  | intervalExpiry n => exact h.intervalExpiryIfDue
  | chainStart n => exact h.modLane (h n).chainStartIfDue
  | holdoffExpiry p => exact h.still fun _ => State.modPort_lane ..

end

/-- Settles O52: the invariant reads the lanes alone, and every operation on a lane keeps it. -/
theorem countsStaySound : Obligations.CountsStaySound := fun _ _ hs h =>
  step_keeps (P := AllCountsSound) (fun _ _ _ _ lanes hs => hs.still fun m => by simp only [State.lane, lanes])
    (fun _ p hs => hs.startOwed p) (fun _ _ _ _ taken => taken.counts) (fun _ _ _ line => line.counts) h hs

end Sys2Proof.Machine
end

section
/-!
PROOF. The worst-slice list (R134): an offered slice stands behind the entries as large and before the smaller ones.
-/

namespace Sys2Proof.Machine

/-- An entry put into a list in descending order: behind its equals, before the smaller ones. -/
theorem insertWorst_eq {e : WorstEntry} {ws : List WorstEntry}
    (order : ws.Pairwise fun x y => y.bits.toNat ≤ x.bits.toNat) :
    insertWorst e ws = ws.filter (fun x => decide (e.bits.toNat ≤ x.bits.toNat)) ++ e ::
      ws.filter fun x => decide (x.bits.toNat < e.bits.toNat) := by
  induction ws with
  | nil => rfl
  | cons x xs ih =>
    obtain ⟨hx, hxs⟩ := List.pairwise_cons.mp order
    rw [insertWorst]
    split
    · rename_i hle
      rw [ih hxs, List.filter_cons_of_pos (by simpa using hle), List.filter_cons_of_neg (by simpa using hle)]
      rfl
    · rename_i hlt
      have smaller : ∀ y ∈ x :: xs, y.bits.toNat < e.bits.toNat := fun y hy => by
        rcases List.mem_cons.mp hy with rfl | hy
        · omega
        · have := hx y hy
          omega
      rw [List.filter_eq_nil_iff.mpr fun y hy => by simpa using smaller y hy,
        List.filter_eq_self.mpr fun y hy => by simpa using smaller y hy]
      rfl

/-- A list with room takes every offer. -/
theorem offerWorst_room {e : WorstEntry} {ws : List WorstEntry} (room : ws.length < 4) :
    offerWorst e ws = insertWorst e ws :=
  if_pos room

/-- A full list takes an offer larger than its last entry, which it drops, and no other. -/
theorem offerWorst_full {e last : WorstEntry} {ws : List WorstEntry} (full : ws.length = 4)
    (hlast : ws.getLast? = some last) :
    offerWorst e ws = if last.bits.toNat < e.bits.toNat then insertWorst e (ws.take 3) else ws := by
  have hfull : ¬ ws.length < Config.worstSize := by rw [full]; decide
  rw [offerWorst, if_neg hfull, hlast, List.dropLast_eq_take, full]

/-- In a list in descending order the last entry is the least. -/
theorem last_le_of_descending {last : WorstEntry} {ws : List WorstEntry}
    (order : ws.Pairwise fun x y => y.bits.toNat ≤ x.bits.toNat) (hlast : ws.getLast? = some last) {x : WorstEntry}
    (hx : x ∈ ws) : last.bits.toNat ≤ x.bits.toNat := by
  obtain ⟨init, rfl⟩ := List.getLast?_eq_some_iff.mp hlast
  rcases List.mem_append.mp hx with hx | hx
  · exact (List.pairwise_append.mp order).2.2 x hx last (List.mem_singleton_self last)
  · rw [List.mem_singleton.mp hx]

/-- Settles O43: with room the offer is an insertion, and a full list compares it with its last entry, the least. -/
theorem worstListKeepsItsOrder : Obligations.WorstListKeepsItsOrder := by
  intro e ws length order
  obtain ⟨hlength, horder⟩ := offerWorst_sound (e := e) length order
  refine ⟨hlength, horder, ?_⟩
  rcases Nat.lt_or_eq_of_le length with room | full
  · refine ⟨ws, fun _ => rfl, fun full => by omega, fun _ => ?_, fun full => by omega⟩
    rw [offerWorst_room room, insertWorst_eq order]
  · obtain ⟨last, hlast⟩ : ∃ last, ws.getLast? = some last :=
      Option.isSome_iff_exists.mp (List.getLast?_isSome.mpr (by rintro rfl; cases full))
    have hmem : last ∈ ws := List.mem_of_getLast? hlast
    rw [offerWorst_full full hlast]
    refine ⟨ws.take 3, fun room => by omega, fun _ => rfl, fun larger => ?_, fun _ none => ?_⟩
    · obtain ⟨x, hx, hlt⟩ := larger.resolve_left (by omega)
      rw [if_pos ((last_le_of_descending order hlast hx).trans_lt hlt),
        insertWorst_eq (order.sublist (List.take_sublist 3 ws))]
    · rw [if_neg (Nat.not_lt.mpr (none last hmem))]

end Sys2Proof.Machine
end

section
/-!
PROOF. What starts an interval (R119 to R124): GATE_ARM, GATE_TRIGGER in WAIT, an edge of the GATE line and a chain offer,
each on a lane alone.
-/

namespace Sys2Proof.Machine

/-! ### Starts of one lane -/

/-- The start of an interval, as the statements name it (R121). -/
theorem startInterval_eq (l : LaneState) : startInterval l = freshInterval l := by
  have active : gateActive (((l.modAcc zeroInterval).modProgress fun _ => Reset.progress).setTimer .run) =
      gateActive l := rfl
  simp only [startInterval, refreshMark, unavailableNow, counting, active, freshInterval]
  rfl

section
variable {l : LaneState}

/-- A timer armed under a LEVEL trigger (R120). -/
theorem armTimer_level (level : l.timer.config.trigger = .levelHigh ∨ l.timer.config.trigger = .levelLow) :
    armTimer l = freshInterval l := by
  rw [armTimer, if_pos, startInterval_eq]
  rcases level with h | h <;> rw [h] <;> rfl

/-- A timer armed under any other trigger waits (R120). -/
theorem armTimer_wait (high : l.timer.config.trigger ≠ .levelHigh) (low : l.timer.config.trigger ≠ .levelLow) :
    armTimer l = { l with timer := { l.timer with state := .wait, chainOffer := .none } } := by
  have hlevel : l.timer.config.trigger.isLevel = false := by
    cases h : l.timer.config.trigger with
    | levelHigh => exact absurd h high
    | levelLow => exact absurd h low
    | _ => rfl
  rw [armTimer, hlevel]
  rfl

/-- A matching edge starts a timer that waits (R123). -/
theorem gateEdgeTaken_starts {level : Level} (wait : l.timer.state = .wait)
    (matching : l.timer.config.trigger.matchesEdge level = true) :
    gateEdgeTaken level l = freshInterval { l with gateLine := level } := by
  rw [← startInterval_eq]
  exact if_pos ⟨wait, matching⟩

/-- Any other edge moves the line, and marks the open slice where R132 asks for it. -/
theorem gateEdgeTaken_marks {level : Level}
    (none : l.timer.state ≠ .wait ∨ l.timer.config.trigger.matchesEdge level = false) :
    gateEdgeTaken level l = refreshMark { l with gateLine := level } := by
  refine if_neg fun ⟨wait, matching⟩ => ?_
  rcases none with h | h
  · exact h wait
  · exact absurd (matching.symm.trans h) (by decide)

/-- An offered close starts a timer that waits (R124). -/
theorem chainStartIfDue_starts (wait : l.timer.state = .wait) (offered : l.timer.chainOffer.standing = true) :
    chainStartIfDue l = freshInterval l := by
  rw [chainStartIfDue, if_pos (by simp [wait, offered]), startInterval_eq]

theorem chainStartIfDue_none (none : l.timer.state ≠ .wait ∨ l.timer.chainOffer.standing = false) :
    chainStartIfDue l = l := by
  rw [chainStartIfDue, if_neg]
  simp only [Bool.and_eq_true, beq_iff_eq]
  rintro ⟨offered, wait⟩
  rcases none with h | h
  · exact h wait
  · exact absurd (offered.symm.trans h) (by decide)

end

theorem GateTrigger.matchesEdge_iff (t : GateTrigger) (level : Level) : t.matchesEdge level = true ↔
    (t = .gateRise ∧ level = .high) ∨ (t = .gateFall ∧ level = .low) ∨ t = .gateBoth := by
  cases t <;> simp [GateTrigger.matchesEdge]

/-! ### Starts by a command (R120, R122) -/

section
variable {s : State} {p : Port} {n : Lane}

/-- What GATE_ARM answers on an open lane in STOP: the state that the timer takes. -/
theorem exec_gateArm (h : LaneOpen s p n) (stop : (s.lane n).timer.state = .stop) {g : LaneState → LaneState}
    (arm : armTimer (s.lane n) = g (s.lane n)) : exec (.gateArm p.frame [laneCode n]) s =
      .next ((replied p 2
        { status := .ok, code := 0x49, fields := [laneCode n, timerStateCode (g (s.lane n)).timer.state] } s).modLane n
        g) := by
  rw [exec, execGateArm]
  refine laneCommand_changes h ?_
  rw [State.shifted_lane, if_pos stop, arm]
  exact congrArg _ (modLane_congr (by rw [State.shifted_lane, arm]))

/-- What GATE_TRIGGER answers on an open lane in WAIT. -/
theorem exec_gateTrigger_wait (h : LaneOpen s p n) (wait : (s.lane n).timer.state = .wait) :
    exec (.gateTrigger p.frame [laneCode n]) s =
      .next ((replied p 2 { status := .ok, code := 0x4A, fields := [0, 0] } s).modLane n freshInterval) := by
  rw [exec, execGateTrigger, ← funext startInterval_eq]
  refine laneCommand_changes h ?_
  rw [State.shifted_lane, wait]
  rfl

end

/-- Settles O38: each start comes down to `freshInterval` on its lane. -/
theorem whatStartsAnInterval : Obligations.WhatStartsAnInterval := by
  refine ⟨fun p n s h => ⟨fun stop level => exec_gateArm h stop (armTimer_level level),
      fun stop high low => exec_gateArm h stop
        (g := fun l => { l with timer := { l.timer with state := .wait, chainOffer := .none } })
        (armTimer_wait high low),
      fun wait => exec_gateTrigger_wait h wait⟩,
    fun n level s => ⟨fun same => ?_, fun change => ⟨fun ⟨wait, matching⟩ => ?_, fun none => ?_⟩⟩,
    GateTrigger.matchesEdge_iff, fun n s => ⟨fun ⟨wait, offered⟩ => ?_, fun none => ?_⟩⟩
  · rw [exec, execGateEdge, if_pos same]
  · rw [exec, execGateEdge, if_neg change]
    exact congrArg Host.Outcome.next (modLane_congr (gateEdgeTaken_starts wait matching))
  · rw [exec, execGateEdge, if_neg change]
    exact congrArg Host.Outcome.next (modLane_congr (gateEdgeTaken_marks none))
  · rw [exec, execChainStart]
    exact congrArg Host.Outcome.next (modLane_congr (chainStartIfDue_starts wait offered))
  · rw [exec, execChainStart, modLane_eq_self (chainStartIfDue_none none)]

end Sys2Proof.Machine
end

section
/-!
PROOF. The close of an interval, exactly (R124, R133 to R137, R150, R152): what it leaves of each lane and of each port,
read from the lane's state before it.
-/

namespace Sys2Proof.Machine

/-! ### The push of a record (R152) -/

/-- A ring with a record pushed: the newest under the next sequence number, the oldest of a full ring gone. -/
def Ring.push (g : Ring) (r : IntervalRecord) : Ring where
  records := (if 16 ≤ g.records.length then g.records.tail else g.records) ++ [{ r with sequence := g.nextSeq }]
  nextSeq := g.nextSeq + 1

/-- A port after a push to ring `g` of lane n: its cursor is charged with the record that a full ring drops (R152). -/
def Ring.chargeOldest (g : Ring) (n : Lane) (v : PortState) : PortState :=
  if 16 ≤ g.records.length then
    match g.records.head? with
    | some old => v.modResult n (chargeRemoved old.sequence)
    | none => v
  else v

theorem Ring.chargeOldest_full {g : Ring} (full : 16 ≤ g.records.length) {old : IntervalRecord}
    (head : g.records.head? = some old) (n : Lane) (v : PortState) :
    g.chargeOldest n v = v.modResult n (chargeRemoved old.sequence) := by
  rw [chargeOldest, if_pos full, head]

theorem Ring.chargeOldest_room {g : Ring} (room : ¬ 16 ≤ g.records.length) (n : Lane) (v : PortState) :
    g.chargeOldest n v = v :=
  if_neg room

section
variable (s : State) (n : Lane) (r : IntervalRecord)

theorem pushRecord_eq : pushRecord s n r =
    (s.modLane n fun l => { l with ring := (s.lane n).ring.push r }).modPorts ((s.lane n).ring.chargeOldest n) := by
  have size : Config.ringSize = 16 := rfl
  simp only [pushRecord, size, List.length_append, List.length_singleton, Ring.push]
  by_cases full : 16 ≤ (s.lane n).ring.records.length
  · obtain ⟨old, rest, hrecords⟩ := List.exists_cons_of_length_pos (Nat.lt_of_lt_of_le (by decide) full)
    have head : (s.lane n).ring.records.head? = some old := by rw [hrecords, List.head?_cons]
    rw [if_pos (by omega), if_pos full, funext (Ring.chargeOldest_full full head n), hrecords]
    rfl
  · rw [if_neg (by omega), if_neg full, funext (Ring.chargeOldest_room full n)]
    rfl

theorem pushRecord_lane (m : Lane) : (pushRecord s n r).lane m =
    if m = n then { s.lane n with ring := (s.lane n).ring.push r } else s.lane m := by
  rw [pushRecord_eq, State.modPorts_lane, State.modLane_lane]

theorem pushRecord_port (p : Port) : (pushRecord s n r).port p = (s.lane n).ring.chargeOldest n (s.port p) := by
  rw [pushRecord_eq, State.modPorts_port, State.modLane_port]

end

/-! ### One lane, one port -/

/-- The record that the close of lane n's interval makes, numbered by the push (R136, Table 7-4). -/
def closingRecord (n : Lane) (cause : CloseCause) (l : LaneState) : IntervalRecord :=
  buildRecord n cause (classifyOpenSlice l)

/-- What a close leaves of its own lane, but for offers. -/
def closedLane (n : Lane) (cause : CloseCause) (l : LaneState) : LaneState :=
  { finishClose cause (makesRecord l) l with
    ring := if makesRecord l then l.ring.push (closingRecord n cause l) else l.ring }

/-- The flags that a close with a record raises: INTERVAL_CLOSED, and THRESHOLD with the alarm (R136, R137). -/
def closingFlags (n : Lane) (l : LaneState) : EventSet :=
  (Event.intervalClosed n).flag ||| if alarmExceeded l then (Event.threshold n).flag else 0

/-- What a close of lane n leaves of a port. -/
def closedPort (n : Lane) (l : LaneState) (v : PortState) : PortState :=
  if makesRecord l then
    { v with
      results := (l.ring.chargeOldest n v).results
      view := { v.view with pending := v.view.pending ||| closingFlags n l } }
  else v

/-- The push moves cursors alone. -/
theorem Ring.chargeOldest_eq (g : Ring) (n : Lane) (v : PortState) :
    g.chargeOldest n v = { v with results := (g.chargeOldest n v).results } := by
  unfold Ring.chargeOldest
  repeat' split
  all_goals rfl

theorem alarmExceeded_classifyOpenSlice (l : LaneState) : alarmExceeded (classifyOpenSlice l) = alarmExceeded l := by
  unfold classifyOpenSlice
  split <;> rfl

theorem ring_classifyOpenSlice (l : LaneState) : (classifyOpenSlice l).ring = l.ring := by
  unfold classifyOpenSlice
  split <;> rfl

theorem makesRecord_iff {l : LaneState} : makesRecord l = true ↔ l.timer.progress.elapsed ≠ 0 := bne_iff_ne

/-! ### The close over a state -/

section
variable (s : State) (n : Lane) (cause : CloseCause) (sender : Option Port)

theorem closeWithRecord_lane (m : Lane) : (closeWithRecord s n cause).lane m =
    if m = n then
      { finishClose cause true (s.lane n) with ring := (s.lane n).ring.push (closingRecord n cause (s.lane n)) }
    else s.lane m := by
  have hpushed : ∀ t : State, (∀ k, t.lane k = (pushRecord (s.setLane n (classifyOpenSlice (s.lane n))) n
      (closingRecord n cause (s.lane n))).lane k) →
      (t.modLane n (finishClose cause true)).lane m = if m = n then
        { finishClose cause true (s.lane n) with ring := (s.lane n).ring.push (closingRecord n cause (s.lane n)) }
      else s.lane m := fun t ht => by
    by_cases hm : m = n
    · subst m
      rw [modLane_lane_self, ht, pushRecord_lane, if_pos rfl, if_pos rfl, State.setLane_lane, if_pos rfl,
        ring_classifyOpenSlice, finishClose_classifyOpenSlice]
    · rw [modLane_lane_ne hm, ht, pushRecord_lane, if_neg hm, if_neg hm, State.setLane_lane, if_neg hm]
  unfold closeWithRecord
  exact hpushed _ fun k => by split <;> rfl

theorem closeWithRecord_port (p : Port) : (closeWithRecord s n cause).port p =
    { s.port p with
      results := ((s.lane n).ring.chargeOldest n (s.port p)).results
      view := { (s.port p).view with pending := (s.port p).view.pending ||| closingFlags n (s.lane n) } } := by
  have hpushed : (pushRecord (s.setLane n (classifyOpenSlice (s.lane n))) n (closingRecord n cause (s.lane n))).port p =
      { s.port p with results := ((s.lane n).ring.chargeOldest n (s.port p)).results } := by
    rw [pushRecord_port, State.setLane_lane, if_pos rfl, ring_classifyOpenSlice, State.setLane_port]
    exact Ring.chargeOldest_eq ..
  rw [closingRecord] at hpushed
  have noAlarm : (Event.intervalClosed n).flag ||| 0 = (Event.intervalClosed n).flag := BitVec.or_zero
  simp only [closeWithRecord, alarmExceeded_classifyOpenSlice, State.modLane_port, closingFlags]
  split
  · simp only [State.raise_port, hpushed, BitVec.or_assoc]
  · simp only [State.raise_port, hpushed, noAlarm]

/-- A close before it is offered. -/
theorem unofferedClose_lane (m : Lane) : (if makesRecord (s.lane n) then closeWithRecord s n cause
    else s.modLane n (finishClose cause false)).lane m =
      if m = n then closedLane n cause (s.lane n) else s.lane m := by
  unfold closedLane
  cases hmade : makesRecord (s.lane n) with
  | true => exact closeWithRecord_lane ..
  | false => exact State.modLane_lane ..

/-- What a close leaves of every lane: its own is closed, and each is offered the close by a cause that starts followers
(R124). -/
theorem closeInterval_lane (m : Lane) : (closeInterval s n cause sender).lane m =
    if cause.startsFollowers then takeOffer n sender (if m = n then closedLane n cause (s.lane n) else s.lane m)
    else if m = n then closedLane n cause (s.lane n) else s.lane m := by
  rw [closeInterval, offerClose_lane, unofferedClose_lane]

/-- What a close leaves of every port. -/
theorem closeInterval_port (p : Port) :
    (closeInterval s n cause sender).port p = closedPort n (s.lane n) (s.port p) := by
  rw [closeInterval, offerClose_port]
  unfold closedPort
  split
  · exact closeWithRecord_port ..
  · exact State.modLane_port ..

/-- The close of an interval in RUN is not offered to its own lane. -/
theorem closeInterval_lane_run (run : (s.lane n).timer.state = .run) :
    (closeInterval s n cause sender).lane n = closedLane n cause (s.lane n) := by
  have state : (closedLane n cause (s.lane n)).timer.state = .run := run
  rw [closeInterval_lane, if_pos rfl]
  split
  · rcases takeOffer_cases n sender (closedLane n cause (s.lane n)) with h | ⟨wait, -, -⟩
    · exact h
    · exact absurd (state.symm.trans wait) (by decide)
  · rfl

end

theorem startsFollowers_iff (cause : CloseCause) :
    cause.startsFollowers = true ↔ cause = .expiry ∨ cause = .retrigger := by
  cases cause <;> decide

/-! ### The record and the offer, as the statements name them -/

/-- The progress that a record tells: the open slice in its class when it has units (R136 step 1). -/
def closingProgress (l : LaneState) : IntervalProgress :=
  if l.timer.progress.sliceUnits = 0 then l.timer.progress else classed l

theorem classifyOpenSlice_eq (l : LaneState) :
    classifyOpenSlice l = { l with timer := { l.timer with progress := closingProgress l } } := by
  unfold classifyOpenSlice closingProgress
  split
  · rfl
  · exact classifySlice_eq l

/-- A class counted moves neither the units of a slice nor of its interval. -/
theorem closingProgress_elapsed (l : LaneState) : (closingProgress l).elapsed = l.timer.progress.elapsed := by
  unfold closingProgress
  split <;> rfl

/-- The chain offer of a lane after lane n's close (R124). -/
def offerAfterClose (n : Lane) (cause : CloseCause) (sender : Option Port) (l : LaneState) : ChainOffer :=
  if (cause = .expiry ∨ cause = .retrigger) ∧ l.timer.state = .wait ∧ l.timer.config.trigger = .chain n then
    l.timer.chainOffer.join sender
  else l.timer.chainOffer

theorem takeOffer_eq (n : Lane) (sender : Option Port) (l : LaneState) : takeOffer n sender l =
    l.withOffer (if l.timer.state = .wait ∧ l.timer.config.trigger = .chain n then l.timer.chainOffer.join sender
      else l.timer.chainOffer) := by
  simp only [takeOffer, Bool.and_eq_true, beq_iff_eq]
  split <;> rfl

section
variable (s : State) (n : Lane) (cause : CloseCause) (sender : Option Port)

/-- A close clears its own lane's interval, and of every lane it moves the chain offer. -/
theorem closeInterval_lane_withOffer (m : Lane) : (closeInterval s n cause sender).lane m =
    (if m = n then closedLane n cause (s.lane n) else s.lane m).withOffer
      (offerAfterClose n cause sender (s.lane m)) := by
  have unmoved : ∀ l : LaneState, l = (if m = n then closedLane n cause (s.lane n) else s.lane m) →
      l.timer.state = (s.lane m).timer.state ∧ l.timer.config = (s.lane m).timer.config ∧
        l.timer.chainOffer = (s.lane m).timer.chainOffer := by
    rintro l rfl
    split
    · subst m
      exact ⟨rfl, rfl, rfl⟩
    · exact ⟨rfl, rfl, rfl⟩
  rw [closeInterval_lane, offerAfterClose]
  generalize (if m = n then closedLane n cause (s.lane n) else s.lane m) = l at unmoved ⊢
  obtain ⟨state, config, offer⟩ := unmoved l rfl
  by_cases starts : cause = .expiry ∨ cause = .retrigger
  · rw [if_pos ((startsFollowers_iff cause).mpr starts), takeOffer_eq, state, config, offer]
    simp only [starts, true_and]
  · rw [if_neg (mt (startsFollowers_iff cause).mp starts), if_neg fun h => starts h.1, ← offer]
    rfl

theorem closeInterval_ring :
    ((closeInterval s n cause sender).lane n).ring = (closedLane n cause (s.lane n)).ring := by
  rw [closeInterval_lane_withOffer, if_pos rfl]
  rfl

theorem closeInterval_lastRecorded :
    ((closeInterval s n cause sender).lane n).timer.lastRecorded = makesRecord (s.lane n) := by
  rw [closeInterval_lane_withOffer, if_pos rfl]
  rfl

end

/-! ### Cursors (R151, R152) -/

theorem modResult_results (v : PortState) (n m : Lane) (f : ResultCursor → ResultCursor) :
    (v.modResult n f).results[m] = if m = n then f v.results[n] else v.results[m] := by
  split
  · subst m
    simp [PortState.modResult]
  · exact modResult_other ‹_› f

/-- A push to a ring within its size charges a cursor only when it names the oldest record of a full ring. -/
theorem Ring.chargeOldest_results {g : Ring} (size : g.records.length ≤ 16) (n : Lane) (v : PortState) (m : Lane) :
    (g.chargeOldest n v).results[m] =
      match g.records.head? with
      | some old =>
        if m = n ∧ g.records.length = 16 ∧ v.results[n].next = old.sequence then
          { next := v.results[n].next + 1
            skipped := BitVec.ofNat 16 (min (v.results[n].skipped.toNat + 1) (2 ^ 16 - 1)) }
        else v.results[m]
      | none => v.results[m] := by
  cases head : g.records.head? with
  | none =>
    have empty := List.head?_eq_none_iff.mp head
    rw [chargeOldest_room (by simp [empty])]
  | some old =>
    dsimp only
    by_cases full : g.records.length = 16
    · rw [chargeOldest_full full.ge head, modResult_results, chargeRemoved]
      by_cases hm : m = n
      · subst m
        simp only [full, true_and, if_true]
        rfl
      · rw [if_neg hm, if_neg fun h => hm h.1]
    · rw [chargeOldest_room (by omega), if_neg fun h => full h.2.1]

/-- Settles O40: the close of its own lane is `closedLane` and that of each port `closedPort`. -/
theorem closeMakesItsRecord : Obligations.CloseMakesItsRecord := by
  rintro s t n cause sender rfl
  have slot := SlotStep.closeInterval s n cause sender
  refine ⟨fun empty => ?_, fun units size => ?_, fun m => ?_, slot.segs, slot.store, slot.holders, slot.resetPhase,
    slot.freeCount, slot.pending⟩
  · have unmade : makesRecord (s.lane n) = false := Bool.eq_false_iff.mpr fun made => makesRecord_iff.mp made empty
    refine ⟨?_, (closeInterval_lastRecorded ..).trans unmade, fun p => ?_⟩
    · rw [closeInterval_ring, closedLane, unmade]
      rfl
    · rw [closeInterval_port, closedPort, unmade]
      rfl
  · have made : makesRecord (s.lane n) = true := makesRecord_iff.mpr units
    have full : 16 ≤ (s.lane n).ring.records.length ↔ (s.lane n).ring.records.length = 16 := by omega
    refine ⟨{ closingRecord n cause (s.lane n) with sequence := (s.lane n).ring.nextSeq }, ?_, rfl, ?_⟩
    · rw [closeInterval_ring, closedLane, made]
      simp only [if_true, Ring.push, full]
    · rw [closingRecord, classifyOpenSlice_eq]
      refine ⟨rfl, rfl, rfl, closingProgress_elapsed _, rfl, rfl, rfl, rfl, rfl, rfl, rfl, rfl, ?_, rfl, rfl, ?_, rfl,
        rfl, (closeInterval_lastRecorded ..).trans made, fun p => ?_, fun p m => ?_⟩
      · rintro q rfl
        exact ⟨rfl, rfl, rfl, rfl, rfl, rfl⟩
      · cases hmode : (s.lane n).checker.config.overflow <;> simp only [buildRecord, hmode]
      · rw [closeInterval_port, closedPort, if_pos made]
        exact (BitVec.or_assoc ..).symm
      · rw [closeInterval_port, closedPort, if_pos made]
        exact Ring.chargeOldest_results size n (s.port p) m
  · rw [closeInterval_lane_withOffer, closeInterval_ring, closeInterval_lastRecorded]
    split
    · subst m
      rfl
    · rfl

end Sys2Proof.Machine
end

section
/-!
PROOF. What closes an interval and what follows it (R122, R125, R130): GATE_STOP, GATE_TRIGGER in RUN, and the expiry sent
as a command.
-/

namespace Sys2Proof.Machine

/-! ### A close beside a reply (R161) -/

/-- A close reads no response and leaves the responses alone. -/
theorem closedPort_reply (n : Lane) (l : LaneState) (v : PortState) (r : Response) (out : List Byte) :
    closedPort n l { v with response := r, shiftedOut := out } =
      { closedPort n l v with response := r, shiftedOut := out } := by
  have charge : (l.ring.chargeOldest n { v with response := r, shiftedOut := out }).results =
      (l.ring.chargeOldest n v).results := by
    unfold Ring.chargeOldest
    repeat' split
    all_goals rfl
  unfold closedPort
  split
  · rw [charge]
  · rfl

/-- A close and the reply of the frame that makes it stand beside each other. -/
theorem closeInterval_replied (p : Port) (len : Nat) (r : Response) (s : State) (n : Lane) (cause : CloseCause)
    (sender : Option Port) : closeInterval (replied p len r s) n cause sender =
      replied p len r (closeInterval s n cause sender) := by
  have slot := SlotStep.closeInterval s n cause sender
  have slot' := SlotStep.closeInterval (replied p len r s) n cause sender
  refine State.ext_parts (fun i => ?_) ?_ (fun m => ?_) (fun q => ?_) (fun i => ?_) ?_ ?_ ?_
  · rw [replied_seg, State.seg, State.seg, slot'.segs, slot.segs, replied_segs]
  · rw [replied_store, slot'.store, slot.store, replied_store]
  · simp only [replied_lane, closeInterval_lane]
  · simp only [closeInterval_port, replied_port, replied_lane]
    split
    · rw [closedPort_reply, ← closeInterval_port s n cause sender p, (slot.port p).response]
    · rfl
  · rw [replied_holder, State.holder, State.holder, slot'.holders, slot.holders, replied_holders]
  · rw [replied_resetPhase, slot'.resetPhase, slot.resetPhase, replied_resetPhase]
  · rw [replied_freeCount, slot'.freeCount, slot.freeCount, replied_freeCount]
  · rw [replied_pending, slot'.pending, slot.pending, replied_pending]

/-! ### Closes by a command -/

section
variable (s : State) (n : Lane)

theorem closeAndStop_eq (cause : CloseCause) :
    closeAndStop s n cause = (closeInterval s n cause none).modLane n stopped := rfl

theorem closeAndRestart_eq (cause : CloseCause) (sender : Option Port) :
    closeAndRestart s n cause sender = (closeInterval s n cause sender).modLane n freshInterval := by
  rw [closeAndRestart, funext startInterval_eq]

/-- A close in the state that a frame finds, with the reply put in place after it. -/
theorem closeInterval_shifted_respond (p : Port) (len : Nat) (r : Response) (cause : CloseCause) (sender : Option Port)
    (f : LaneState → LaneState) :
    ((closeInterval (s.shifted p len) n cause sender).modLane n f).respond p r =
      (closeInterval (replied p len r s) n cause sender).modLane n f := by
  rw [closeInterval_shifted, shifted_modLane_respond, closeInterval_replied]

end

section
variable {s : State} {p : Port} {n : Lane}

theorem stopTimer_stop (stop : (s.lane n).timer.state = .stop) : stopTimer s n = s := by
  rw [stopTimer, stop]

theorem stopTimer_wait (wait : (s.lane n).timer.state = .wait) : stopTimer s n = s.modLane n stopped := by
  rw [stopTimer, wait]
  rfl

theorem stopTimer_run (run : (s.lane n).timer.state = .run) : stopTimer s n = closeAndStop s n .gateStop := by
  rw [stopTimer, run]

/-- What GATE_STOP answers on an open lane: the state that it found, and whether it made a record. -/
theorem exec_gateStop (h : LaneOpen s p n) : exec (.gateStop p.frame [laneCode n]) s =
    .next ((stopTimer (s.shifted p 2) n).respond p
      { status := .ok, code := 0x4B,
        fields := [laneCode n, timerStateCode (s.lane n).timer.state,
          yesNo ((s.lane n).timer.state == .run && makesRecord (s.lane n))] }) := by
  rw [exec, execGateStop, laneCommand_open h, settle_done, State.shifted_lane]

/-- What GATE_TRIGGER answers on an open lane in RUN: a RETRIGGER, and whether it made a record. -/
theorem exec_gateTrigger_run (h : LaneOpen s p n) (run : (s.lane n).timer.state = .run) :
    exec (.gateTrigger p.frame [laneCode n]) s =
      .next ((closeInterval (replied p 2
        { status := .ok, code := 0x4A, fields := [1, yesNo (makesRecord (s.lane n))] } s) n .retrigger
        (some p)).modLane n freshInterval) := by
  rw [exec, execGateTrigger, laneCommand_open h, State.shifted_lane, run]
  dsimp only
  rw [settle_done, Port.frame_port, closeAndRestart_eq, closeInterval_shifted_respond]

/-- The expiry of an interval at its length, in each mode (R130). -/
theorem expired_once (once : (s.lane n).timer.config.mode = .once) :
    expired n s = (closeInterval s n .expiry none).modLane n stopped :=
  modLane_congr (by rw [closeInterval_config, once])

theorem expired_repeating (repeating : (s.lane n).timer.config.mode = .repeating) :
    expired n s = (closeInterval s n .expiry none).modLane n freshInterval :=
  modLane_congr (by rw [closeInterval_config, repeating])

end

/-- Settles O39: the close is `closeInterval` beside the reply, and the expiry is that of `intervalExpiryIfDue_eq`. -/
theorem whatClosesAnInterval : Obligations.WhatClosesAnInterval := by
  refine ⟨fun p n s h => ⟨fun stop => ?_, fun wait => ?_, fun run made hmade => ?_⟩, fun n s =>
    ⟨fun ⟨run, full⟩ => ?_, fun none => ?_⟩⟩
  · rw [exec_gateStop h, stopTimer_stop (by rw [State.shifted_lane, stop]), shifted_respond, stop]
    rfl
  · rw [exec_gateStop h, stopTimer_wait (by rw [State.shifted_lane, wait]), shifted_modLane_respond, wait]
    rfl
  · have hrecord : made = makesRecord (s.lane n) := hmade
    refine ⟨?_, hrecord ▸ exec_gateTrigger_run h run⟩
    rw [exec_gateStop h, stopTimer_run (by rw [State.shifted_lane, run]), closeAndStop_eq,
      closeInterval_shifted_respond, run, hrecord]
    rfl
  · have expiry : exec (.intervalExpiry n) s = .next (expired n s) := by
      rw [exec, execIntervalExpiry, intervalExpiryIfDue_eq run, if_pos full]
    exact ⟨fun once => by rw [expiry, expired_once once], fun repeating => by rw [expiry, expired_repeating repeating]⟩
  · rw [exec, execIntervalExpiry, intervalExpiryIfDue, if_neg]
    simpa only [Bool.and_eq_true, beq_iff_eq] using none

end Sys2Proof.Machine
end

section
/-!
PROOF. A tick over every interval timer and hold-off timer (R124, R127, R130, R131, R173, logs 7, 26): what lane n stands as
afterwards depends on its own unit, and on the other lanes only by the closes that it waits for.
-/

namespace Sys2Proof.Machine

/-! ### A lane at the end of its interval (R130) -/

section
variable {s : State} {n : Lane}

/-- What an expiry leaves of its own lane. -/
theorem expired_lane (run : (s.lane n).timer.state = .run) : (expired n s).lane n =
    match (s.lane n).timer.config.mode with
    | .once => stopped (closedLane n .expiry (s.lane n))
    | .repeating => freshInterval (closedLane n .expiry (s.lane n)) := by
  rw [expired, modLane_lane_self, closeInterval_lane_run s n .expiry none run]
  rfl

theorem expired_lane_ne {m : Lane} (h : n ≠ m) (s : State) : (expired m s).lane n = takeOffer m none (s.lane n) := by
  rw [expired, modLane_lane_ne h, closeInterval_lane_ne h]
  rfl

theorem expired_port (p : Port) : (expired n s).port p = closedPort n (s.lane n) (s.port p) := by
  rw [expired, State.modLane_port, closeInterval_port]

/-- After an expiry the timer tells of it, and stands at the start of an interval or in STOP. -/
theorem expired_timer (run : (s.lane n).timer.state = .run) :
    ((expired n s).lane n).timer.lastCause = some .expiry ∧ ((expired n s).lane n).timer.progress.elapsed = 0 ∧
      ((expired n s).lane n).timer.state =
        (match (s.lane n).timer.config.mode with | .once => .stop | .repeating => .run) := by
  rw [expired_lane run]
  cases (s.lane n).timer.config.mode <;> exact ⟨rfl, rfl, rfl⟩

/-- An expiry of an interval with units makes a record, and says so (R136). -/
theorem expired_record (run : (s.lane n).timer.state = .run) (made : makesRecord (s.lane n) = true) :
    ((expired n s).lane n).timer.lastRecorded = true ∧
      ((expired n s).lane n).ring.nextSeq = (s.lane n).ring.nextSeq + 1 ∧
      ∀ p, ((expired n s).port p).view.pending.getLsbD (6 * n.val + 3) = true := by
  have hbit : (Event.intervalClosed n).bit < 26 := by simp only [Event.bit]; omega
  have hflag : (Event.intervalClosed n).flag.getLsbD (6 * n.val + 3) = true := by
    change (Event.intervalClosed n).flag.getLsbD (Event.intervalClosed n).bit = true
    simp only [Event.flag, BitVec.getLsbD_ofNat, Nat.testBit_two_pow_self, hbit, decide_true, Bool.and_self]
  have closed : (closedLane n .expiry (s.lane n)).timer.lastRecorded = true ∧
      (closedLane n .expiry (s.lane n)).ring.nextSeq = (s.lane n).ring.nextSeq + 1 := by
    rw [closedLane, made]
    exact ⟨rfl, rfl⟩
  refine ⟨?_, ?_, fun p => ?_⟩
  · rw [expired_lane run]
    cases (s.lane n).timer.config.mode <;> exact closed.1
  · rw [expired_lane run]
    cases (s.lane n).timer.config.mode <;> exact closed.2
  · rw [expired_port, closedPort, if_pos made]
    simp only [closingFlags, BitVec.getLsbD_or, hflag, Bool.true_or, Bool.or_true]

end

/-- A unit counted leaves the timer's configuration, state and offer, and moves the interval one unit on. -/
theorem unitTaken_timer {l : LaneState} (run : l.timer.state = .run) :
    (unitTaken l).timer.config = l.timer.config ∧ (unitTaken l).timer.state = .run ∧
      (unitTaken l).timer.progress.elapsed = l.timer.progress.elapsed + 1 ∧ (unitTaken l).ring = l.ring := by
  obtain ⟨config, state, -, elapsed, -⟩ := sliceCloseIfDue_timer l.withUnit (sliceCloseIfDue_withUnit run).symm
  refine ⟨config, state.trans run, elapsed, ?_⟩
  unfold unitTaken
  dsimp only
  split <;> rfl

/-! ### A tick at one timer (R127) -/

/-- Whether a tick adds a unit to a lane's interval (R127). -/
def CountsTick (l : LaneState) : Prop := counting l = true ∧ l.timer.config.unit = .time

theorem CountsTick.run {l : LaneState} (h : CountsTick l) : l.timer.state = .run := run_of_counting h.1

theorem not_countsTick {l : LaneState} (h : l.timer.config.unit = .words ∨ counting l = false) : ¬ CountsTick l := by
  rintro ⟨counts, time⟩
  rcases h with h | h
  · exact absurd (time.symm.trans h) (by decide)
  · exact absurd (counts.symm.trans h) (by decide)

theorem dueAtTick_iff {l : LaneState} :
    dueAtTick l = true ↔ CountsTick l ∧ l.timer.progress.elapsed + 1 = l.timer.config.length := by
  simp only [dueAtTick, CountsTick, Bool.and_eq_true, beq_iff_eq]

/-- Only a lane that takes a tick's unit falls due at it. -/
theorem not_dueAtTick {l : LaneState} (h : ¬ CountsTick l) : dueAtTick l = false :=
  Bool.eq_false_iff.mpr fun due => h (dueAtTick_iff.mp due).1

section
variable {s : State} {n m : Lane}

/-- A tick at a timer, as the statements name it. -/
theorem tickTimer_eq (s : State) (n : Lane) : tickTimer s n = tickUnit n s := by
  simp only [tickTimer, tickUnit, Bool.and_eq_true, beq_iff_eq, and_comm]
  split
  · rename_i h
    exact countUnit_eq (run_of_counting h.2)
  · rfl

theorem tickUnit_idle (idle : ¬ CountsTick (s.lane n)) : tickUnit n s = s := if_neg idle

theorem tickUnit_due (due : dueAtTick (s.lane n) = true) : tickUnit n s = expired n (s.modLane n unitTaken) := by
  obtain ⟨counts, full⟩ := dueAtTick_iff.mp due
  exact (if_pos counts).trans (if_pos full)

theorem tickUnit_short (counts : CountsTick (s.lane n)) (short : dueAtTick (s.lane n) = false) :
    tickUnit n s = s.modLane n unitTaken := by
  refine (if_pos counts).trans (if_neg fun full => ?_)
  exact absurd (short.symm.trans (dueAtTick_iff.mpr ⟨counts, full⟩)) (by decide)

/-- A tick at one timer reaches another lane as an offer of the close that it makes due (R124). -/
theorem tickUnit_lane_ne (h : n ≠ m) (s : State) :
    (tickUnit m s).lane n = if dueAtTick (s.lane m) then takeOffer m none (s.lane n) else s.lane n := by
  split
  · rename_i due
    rw [tickUnit_due due, expired_lane_ne h, modLane_lane_ne h]
  · rename_i due
    by_cases counts : CountsTick (s.lane m)
    · rw [tickUnit_short counts (Bool.eq_false_iff.mpr due), modLane_lane_ne h]
    · rw [tickUnit_idle counts]

/-- A tick takes a counting timer on or to the end of its interval, never into WAIT. -/
theorem tickUnit_nowait (counts : CountsTick (s.lane n)) : ((tickUnit n s).lane n).timer.state ≠ .wait := by
  obtain ⟨-, state, -, -⟩ := unitTaken_timer counts.run
  have run : ((s.modLane n unitTaken).lane n).timer.state = .run := by rw [modLane_lane_self, state]
  cases due : dueAtTick (s.lane n) with
  | true =>
    rw [tickUnit_due due, (expired_timer run).2.2]
    split <;> decide
  | false =>
    rw [tickUnit_short counts due, run]
    decide

theorem BlockStep.tickUnit (s : State) (m : Lane) : BlockStep m s (tickUnit m s) := by
  rw [← tickTimer_eq, tickTimer]
  split
  · exact .countUnit s m
  · exact .refl m s

theorem LaneAlike.tickUnit {u t : State} (h : LaneAlike n u t) : LaneAlike n (tickUnit n u) (tickUnit n t) := by
  rw [← tickTimer_eq, ← tickTimer_eq, tickTimer, tickTimer, h.lane]
  split
  · exact h.countUnit
  · exact h

theorem LaneAlike.trans {u v t : State} (h : LaneAlike n u v) (g : LaneAlike n v t) : LaneAlike n u t :=
  ⟨g.lane.trans h.lane, fun p =>
    ⟨(g.ports p).1.trans (h.ports p).1, fun k hk => ((g.ports p).2 k hk).trans ((h.ports p).2 k hk)⟩⟩

end

/-! ### A tick at several timers (log 26) -/

/-- A tick at the timers of some lanes, in their order. -/
def ticksAt (ns : List Lane) (s : State) : State := ns.foldl (fun v n => tickUnit n v) s

section
variable {n : Lane}

/-- Ticks at other timers, and at its own when it takes no unit, leave a lane and its share of the ports but for
offers. -/
theorem ticksAt_stands {ns : List Lane} {s : State} (h : n ∉ ns ∨ ¬ CountsTick (s.lane n)) :
    LaneStandsAs n (fun _ => True) s (ticksAt ns s) := by
  induction ns generalizing s with
  | nil => exact .refl s
  | cons m ns ih =>
    by_cases hn : n = m
    · subst m
      have idle : ¬ CountsTick (s.lane n) := h.resolve_left fun hmem => hmem List.mem_cons_self
      rw [ticksAt, List.foldl_cons, tickUnit_idle idle]
      exact ih (.inr idle)
    · have step : LaneStandsAs n (fun _ => True) s (tickUnit m s) := (BlockStep.tickUnit s m).stands hn trivial
      refine step.trans (ih (h.imp (mt (List.mem_cons_of_mem m)) fun idle => ?_))
      rwa [CountsTick, step.counting, step.timerConfig]

/-- A lane that takes a unit of the tick stands as after its own unit alone. -/
theorem ticksAt_counts {ns : List Lane} {s : State} (distinct : ns.Nodup) (mem : n ∈ ns)
    (counts : CountsTick (s.lane n)) : LaneAlike n (tickUnit n s) (ticksAt ns s) := by
  induction ns generalizing s with
  | nil => exact absurd mem List.not_mem_nil
  | cons m ns ih =>
    obtain ⟨hm, distinct⟩ := List.nodup_cons.mp distinct
    by_cases hn : n = m
    · subst m
      exact (ticksAt_stands (.inl hm)).alike (tickUnit_nowait counts)
    · have step : LaneAlike n s (tickUnit m s) :=
        ((BlockStep.tickUnit s m).stands (closing := fun _ => True) hn trivial).alike (by rw [counts.run]; decide)
      exact step.tickUnit.trans (ih distinct (List.mem_of_ne_of_mem hn mem) (by rwa [step.lane]))

/-- The chain offer of a lane once the lanes that `due` names have closed by expiry (R124). -/
def offerAtTick (due : Lane → Bool) (l : LaneState) : ChainOffer :=
  if l.timer.state = .wait ∧ ∃ m : Lane, l.timer.config.trigger = .chain m ∧ due m = true then
    { l.timer.chainOffer with standing := true }
  else l.timer.chainOffer

theorem offerAtTick_none {due : Lane → Bool} {l : LaneState}
    (none : ∀ m, l.timer.config.trigger = .chain m → due m = false) : offerAtTick due l = l.timer.chainOffer :=
  if_neg fun ⟨_, m, chain, hdue⟩ => absurd (hdue.symm.trans (none m chain)) (by decide)

theorem withOffer_chainOffer (l : LaneState) : l.withOffer l.timer.chainOffer = l := rfl

/-- Offers of two sets of lanes, one after the other. -/
theorem offerAtTick_offerAtTick (due due' : Lane → Bool) (l : LaneState) :
    offerAtTick due' (l.withOffer (offerAtTick due l)) = offerAtTick (fun m => due m || due' m) l := by
  have both : (l.timer.state = .wait ∧ ∃ m : Lane, l.timer.config.trigger = .chain m ∧ (due m || due' m) = true) ↔
      (l.timer.state = .wait ∧ ∃ m : Lane, l.timer.config.trigger = .chain m ∧ due m = true) ∨
        (l.timer.state = .wait ∧ ∃ m : Lane, l.timer.config.trigger = .chain m ∧ due' m = true) := by
    simp only [Bool.or_eq_true, and_or_left, exists_or]
  simp only [offerAtTick, LaneState.withOffer, both]
  by_cases first : l.timer.state = .wait ∧ ∃ m : Lane, l.timer.config.trigger = .chain m ∧ due m = true
  · simp only [first, true_and, true_or, if_true, ite_self]
  · simp only [first, false_or, if_false]

/-- A lane that takes no unit of the tick moves its chain offer alone. -/
theorem tickUnit_lane_idle {s : State} (idle : ¬ CountsTick (s.lane n)) (m : Lane) : (tickUnit m s).lane n =
    (s.lane n).withOffer (offerAtTick (fun k => decide (k = m) && dueAtTick (s.lane k)) (s.lane n)) := by
  have unoffered : dueAtTick (s.lane m) = false →
      offerAtTick (fun k => decide (k = m) && dueAtTick (s.lane k)) (s.lane n) = (s.lane n).timer.chainOffer :=
    fun short => offerAtTick_none fun k _ => by
      by_cases hk : k = m
      · rw [hk, short, Bool.and_false]
      · rw [decide_eq_false hk, Bool.false_and]
  by_cases hn : n = m
  · subst m
    rw [tickUnit_idle idle, unoffered (not_dueAtTick idle), withOffer_chainOffer]
  · rw [tickUnit_lane_ne hn]
    cases due : dueAtTick (s.lane m) with
    | true =>
      have chain : (∃ k : Lane, (s.lane n).timer.config.trigger = .chain k ∧
          (decide (k = m) && dueAtTick (s.lane k)) = true) ↔ (s.lane n).timer.config.trigger = .chain m := by
        simp [Bool.and_eq_true, due]
      simp only [if_true, takeOffer_eq, ChainOffer.join_none, offerAtTick, chain]
    | false =>
      rw [unoffered due, withOffer_chainOffer]
      rfl

/-- Whether another lane falls due at the tick does not hang on the timers that are ticked before it. -/
theorem dueAtTick_tickUnit {s : State} {k m : Lane} (h : k ≠ m) :
    dueAtTick ((tickUnit m s).lane k) = dueAtTick (s.lane k) := by
  rw [tickUnit_lane_ne h]
  split
  · rw [takeOffer_eq]
    rfl
  · rfl

/-- A lane that takes no unit of the tick is offered the closes of the lanes that fall due at it. -/
theorem ticksAt_idle {ns : List Lane} {s : State} (distinct : ns.Nodup) (idle : ¬ CountsTick (s.lane n)) :
    (ticksAt ns s).lane n =
      (s.lane n).withOffer (offerAtTick (fun k => decide (k ∈ ns) && dueAtTick (s.lane k)) (s.lane n)) := by
  induction ns generalizing s with
  | nil =>
    rw [offerAtTick_none fun k _ => by rw [decide_eq_false List.not_mem_nil, Bool.false_and], withOffer_chainOffer]
    rfl
  | cons m ns ih =>
    obtain ⟨hm, distinct⟩ := List.nodup_cons.mp distinct
    have lane := tickUnit_lane_idle idle m
    have rest : (fun k => decide (k ∈ ns) && dueAtTick ((tickUnit m s).lane k)) =
        fun k => decide (k ∈ ns) && dueAtTick (s.lane k) := funext fun k => by
      by_cases hk : k ∈ ns
      · have other : k ≠ m := fun h => hm (h ▸ hk)
        rw [dueAtTick_tickUnit other]
      · rw [decide_eq_false hk, Bool.false_and, Bool.false_and]
    have cons : (fun k => decide (k = m) && dueAtTick (s.lane k) || decide (k ∈ ns) && dueAtTick (s.lane k)) =
        fun k => decide (k ∈ m :: ns) && dueAtTick (s.lane k) := funext fun k => by
      simp only [← Bool.and_or_distrib_right, List.mem_cons, Bool.decide_or]
    refine (ih distinct (by rw [lane]; exact idle)).trans ?_
    rw [rest, lane, offerAtTick_offerAtTick, cons]
    rfl

end

/-! ### The hold-off timers (R173) -/

theorem tickHoldoff_stopped {h : Holdoff} (stopped : h.running = false) : tickHoldoff h = h := by
  rw [tickHoldoff, stopped]
  rfl

/-- A running hold-off timer loses one tick, and stops when none is left. -/
theorem tickHoldoff_running {h : Holdoff} (running : h.running = true) :
    (tickHoldoff h).remaining.toNat = h.remaining.toNat - 1 ∧
      ((tickHoldoff h).running = true ↔ (tickHoldoff h).remaining ≠ 0) := by
  have hlt := h.remaining.isLt
  have less : (BitVec.ofNat 8 (h.remaining.toNat - 1)).toNat = h.remaining.toNat - 1 := by
    rw [BitVec.toNat_ofNat, Nat.mod_eq_of_lt (by omega)]
  rw [tickHoldoff, if_pos running]
  generalize BitVec.ofNat 8 (h.remaining.toNat - 1) = left at less
  by_cases none : left = 0
  · rw [holdoffExpiryIfDue_due (h := { h with remaining := left }) running none]
    rw [none] at less
    exact ⟨less, by decide⟩
  · rw [holdoffExpiryIfDue_notDue (h := { h with remaining := left }) (.inr none)]
    exact ⟨less, fun _ => none, fun _ => running⟩

/-! ### The tick (R127, R173) -/

section
variable (s : State)

/-- The state after a tick: every lane's timer in turn, and then both hold-off timers. -/
def ticked (s : State) : State :=
  (ticksAt (List.finRange 4) s).modPorts fun v => v.setHoldoff (tickHoldoff v.view.holdoff)

theorem ticksAt_finRange :
    ticksAt (List.finRange 4) s = tickTimer (tickTimer (tickTimer (tickTimer s 0) 1) 2) 3 := by
  have order : List.finRange 4 = [0, 1, 2, 3] := by decide
  simp only [tickTimer_eq, ticksAt, order, List.foldl_cons, List.foldl_nil]

theorem exec_tick : exec .tick s = .next (ticked s) := by
  rw [exec, execTick]
  simp only [← ticksAt_finRange, ticked]

theorem ticked_lane (n : Lane) : (ticked s).lane n = (ticksAt (List.finRange 4) s).lane n := by
  rw [ticked, State.modPorts_lane]

theorem ticked_port (p : Port) : (ticked s).port p = { (ticksAt (List.finRange 4) s).port p with
    view := { ((ticksAt (List.finRange 4) s).port p).view with holdoff := tickHoldoff (s.port p).view.holdoff } } := by
  have slot := slotStep_ticks s
  rw [← ticksAt_finRange] at slot
  rw [ticked, State.modPorts_port, PortState.setHoldoff, (slot.port p).holdoff]

/-- A tick leaves all but the lanes and the ports (R127, R173). -/
theorem ticked_frame : (ticked s).segs = s.segs ∧ (ticked s).store = s.store ∧ (ticked s).holders = s.holders ∧
    (ticked s).resetPhase = s.resetPhase ∧ (ticked s).freeCount = s.freeCount ∧ (ticked s).pending = s.pending := by
  have slot := slotStep_ticks s
  rw [← ticksAt_finRange] at slot
  unfold ticked
  generalize ticksAt (List.finRange 4) s = u at slot ⊢
  exact ⟨slot.segs, slot.store, slot.holders, slot.resetPhase, slot.freeCount, slot.pending⟩

variable {s} {n : Lane}

theorem ticked_counts (counts : CountsTick (s.lane n)) : LaneAlike n (tickUnit n s) (ticked s) := by
  have h := ticksAt_counts (List.nodup_finRange 4) (List.mem_finRange n) counts
  refine ⟨(ticked_lane s n).trans h.lane, fun p => ?_⟩
  rw [ticked_port]
  exact h.ports p

/-- A lane that counts a unit short of its interval's length takes it alone. -/
theorem ticked_short (counts : CountsTick (s.lane n)) (short : dueAtTick (s.lane n) = false) :
    (ticked s).lane n = unitTaken (s.lane n) := by
  rw [(ticked_counts counts).lane, tickUnit_short counts short, modLane_lane_self]

theorem ticked_idle (idle : ¬ CountsTick (s.lane n)) :
    (ticked s).lane n = (s.lane n).withOffer (offerAtTick (fun k => dueAtTick (s.lane k)) (s.lane n)) := by
  rw [ticked_lane, ticksAt_idle (List.nodup_finRange 4) idle]
  simp only [List.mem_finRange, decide_true, Bool.true_and]

/-- A lane that does not fall due leaves its share of the ports as it was. -/
theorem ticked_ports (short : dueAtTick (s.lane n) = false) : PortsAlike n s (ticked s) := by
  by_cases counts : CountsTick (s.lane n)
  · have h := (ticked_counts counts).ports
    rw [tickUnit_short counts short] at h
    exact fun p => by simpa only [State.modLane_port] using h p
  · have h := (ticksAt_stands (ns := List.finRange 4) (.inr counts)).2.2
    exact fun p => by rw [ticked_port]; exact h p

end

/-- Settles O41: each lane's unit is its own (`ticked_counts`), and the rest of a tick reaches a lane as offers
(`ticked_idle`). -/
theorem ticksCountAndExpire : Obligations.TicksCountAndExpire := by
  intro s u hu
  have order : u = ticksAt (List.finRange 4) s := hu
  have lane := ticked_lane s
  have port := ticked_port s
  rw [← order] at lane port
  obtain ⟨segs, store, holders, resetPhase, freeCount, pending⟩ := ticked_frame s
  refine ⟨ticked s, exec_tick s, lane, fun p => ⟨_, port p, tickHoldoff_stopped, tickHoldoff_running⟩, segs, store,
    holders, resetPhase, freeCount, pending, fun n time counts => ⟨ticked_short ⟨counts, time⟩, fun due => ?_⟩,
    fun n none => ticked_idle (not_countsTick none), fun n p short => ticked_ports short p⟩
  have alike := ticked_counts ⟨counts, time⟩
  rw [tickUnit_due due] at alike
  obtain ⟨config, state, elapsed, ring⟩ := unitTaken_timer (run_of_counting counts)
  have run : ((s.modLane n unitTaken).lane n).timer.state = .run := by rw [modLane_lane_self, state]
  obtain ⟨cause, zero, after⟩ := expired_timer run
  rw [modLane_lane_self, config] at after
  rw [alike.lane]
  refine ⟨rfl, cause, zero, after, fun length => ?_⟩
  have made : makesRecord ((s.modLane n unitTaken).lane n) = true := by
    rw [makesRecord_iff, modLane_lane_self, elapsed, (dueAtTick_iff.mp due).2]
    intro h
    rw [h] at length
    exact absurd length (by decide)
  obtain ⟨recorded, next, closed⟩ := expired_record run made
  rw [modLane_lane_self, ring] at next
  exact ⟨recorded, next, fun p => ((alike.ports p).2 3 (by decide)).trans (closed p)⟩

end Sys2Proof.Machine
end

section
/-!
PROOF. The close of a slice (R127, R128, R131 to R134): sent as a command, by a tick, and by a compared word.
-/

namespace Sys2Proof.Machine

/-! ### The close of a slice as a command (R131) -/

section
variable {l : LaneState}

theorem sliceCloseIfDue_due (run : l.timer.state = .run) (full : l.timer.progress.sliceUnits = l.timer.config.slice) :
    sliceCloseIfDue l = nextSlice l := by
  rw [sliceCloseIfDue, if_pos (by simp [run, full]), openNextSlice_classifySlice]

theorem sliceCloseIfDue_notDue
    (none : ¬ (l.timer.state = .run ∧ l.timer.progress.sliceUnits = l.timer.config.slice)) : sliceCloseIfDue l = l := by
  rw [sliceCloseIfDue, if_neg]
  simpa only [Bool.and_eq_true, beq_iff_eq] using none

/-! ### The unit that fills a slice (R131) -/

/-- The unit that fills a slice closes it over the interval's new count. -/
theorem unitTaken_fills (fills : l.timer.progress.sliceUnits + 1 = l.timer.config.slice) :
    unitTaken l = nextSlice l.withUnit :=
  if_pos fills

/-- An interval short of its length does not fall due at the tick. -/
theorem not_dueAtTick_of_lt (short : l.timer.progress.elapsed.toNat + 1 < l.timer.config.length.toNat) :
    dueAtTick l = false :=
  Bool.eq_false_iff.mpr fun due => by
    have full := (dueAtTick_iff.mp due).2
    bv_omega

end

/-! ### The unit of a compared word (R128) -/

/-- A word's counts leave the timer alone. -/
theorem withWord_timer (l : LaneState) (c e : Nat) : (l.withWord c e).timer = l.timer := by
  unfold LaneState.withWord
  split <;> rfl

theorem counting_withWord (l : LaneState) (c e : Nat) : counting (l.withWord c e) = counting l := by
  unfold LaneState.withWord
  split <;> rfl

/-- A compared word's unit short of the interval's length moves its lane alone (R128). -/
theorem wordUnit_accumulated_short {s : State} {n : Lane} (counts : counting (s.lane n) = true)
    (words : (s.lane n).timer.config.unit = .words)
    (short : (s.lane n).timer.progress.elapsed.toNat + 1 < (s.lane n).timer.config.length.toNat) (c e : Nat) :
    wordUnit n (accumulated n c e s) = (accumulated n c e s).modLane n unitTaken := by
  have lane : (accumulated n c e s).lane n = (s.lane n).withWord c e := by rw [accumulated_lane, if_pos rfl]
  rw [wordUnit, lane, counting_withWord, withWord_timer, if_pos ⟨counts, words⟩, unitCounted, lane, withWord_timer,
    if_neg]
  intro full
  bv_omega

/-- The slip score after a clean word (R96). -/
theorem lessSlip_toNat (slip : BitVec 6) : (if slip = 0 then 0 else slip - 1).toNat = slip.toNat - 1 := by
  split
  · subst slip
    rfl
  · bv_omega

/-- Settles O42: the filled slice is `nextSlice` wherever the unit comes from. -/
theorem sliceClosesInItsClass : Obligations.SliceClosesInItsClass := by
  refine ⟨fun n s => ⟨fun none => ?_, fun run full => ?_⟩, fun n s counts short fills => ⟨?_, fun time => ?_,
    fun words w ref mask next locked href clean => ?_⟩⟩
  · rw [exec, execSliceClose, modLane_eq_self (sliceCloseIfDue_notDue none)]
  · rw [exec, execSliceClose]
    exact congrArg Host.Outcome.next (modLane_congr (sliceCloseIfDue_due run full))
  · rintro u rfl
    have run := run_of_counting counts
    obtain ⟨-, state, elapsed, ring⟩ := unitTaken_timer run
    have filled : unitTaken (s.lane n) = nextSlice (s.lane n).withUnit := unitTaken_fills (by bv_omega)
    refine ⟨by rw [elapsed]; bv_omega, ?_, ?_, ?_, ?_, ?_, ?_, ?_, ring, state⟩ <;> rw [filled] <;> rfl
  · have idle : ∀ m, (s.lane m).timer.config.unit = .words ∨ counting (s.lane m) = false →
        dueAtTick (s.lane m) = false := fun m hm => not_dueAtTick (not_countsTick hm)
    refine ⟨ticked s, exec_tick s, ticked_short ⟨counts, time⟩ (not_dueAtTick_of_lt short), fun others m hm => ?_⟩
    have none : ∀ k, dueAtTick (s.lane k) = false := fun k => by
      by_cases hk : k = n
      · rw [hk]
        exact not_dueAtTick_of_lt short
      · exact idle k (others k hk)
    rw [ticked_idle (not_countsTick (others m hm)), offerAtTick_none fun k _ => none k, withOffer_chainOffer]
  · have errored : 0 = ones ((w ^^^ ref) &&& mask) := by rw [clean, ones_zero]
    obtain ⟨-, -, -, slip, -⟩ := expected_config href.expected
    have less : (if next.slip = 0 then 0 else next.slip - 1).toNat = (s.lane n).checker.slip.toNat - 1 := by
      rw [← slip]
      exact lessSlip_toNat next.slip
    rw [← wordUnit_accumulated_short counts words short]
    exact (lockedWordIsAccumulated n w s locked).2 ref mask next 0 _ href errored (fun h => absurd h (by decide)) less

end Sys2Proof.Machine
end

section
/-!
PROOF. What a frame finds of its port's earlier commands (R124, R183): the followers of their closes started.
-/

namespace Sys2Proof.Machine

/-! ### Owed starts -/

/-- An owed start, as the statements name it. -/
theorem startOwedAt_eq (p : Port) (l : LaneState) : startOwedAt p l =
    if l.timer.chainOffer.owed p = true ∧ l.timer.chainOffer.standing = true ∧ l.timer.state = .wait then
      freshInterval l
    else l := by
  simp only [startOwedAt, chainStartIfDue, startInterval_eq, Bool.and_eq_true, beq_iff_eq]
  by_cases owed : l.timer.chainOffer.owed p = true
  · simp only [owed, if_true, true_and]
  · rw [if_neg owed, if_neg fun h => owed h.1]

/-- A frame that the part takes does the same once what its port owes is done. -/
theorem exec_startOwed {c : Instr} {f : Select} {bs : List Byte} {s : State} (hw : c.WellFormed = true)
    (hc : frameBytes c = some (f, bs)) (released : s.resetPhase = .released) (late : f.early = false) :
    exec c s = exec c (s.startOwed f.port) := by
  obtain ⟨carried, hcarried⟩ := exec_frameEnds hw hc
  have found : foundBy f s = s.startOwed f.port := if_pos ⟨released, late⟩
  rw [hcarried, hcarried, ← found, frameEnds_foundBy]

/-- What is owed stands, and what stands waits, so that nothing is owed once it is done. -/
theorem framesTaken_startOwed {s : State} {p : Port} (released : s.resetPhase = .released) (sound : OffersSound s) :
    FramesTaken (s.startOwed p) p := by
  refine ⟨released, fun n => ?_⟩
  obtain ⟨waits, owes⟩ := sound n
  rw [State.startOwed_lane, startOwedAt_eq]
  split
  · exact ChainOffer.none_owed p
  · rename_i none
    exact Bool.eq_false_iff.mpr fun owed => none ⟨owed, owes p owed, (waits (owes p owed)).1⟩

/-! ### The follower of a RETRIGGER -/

/-- The follower that waits on a lane that port p retriggers holds an offer that is owed to p. -/
theorem retrigger_follower {s t : State} {p : Port} {m n : Lane} (h : LaneOpen s p m)
    (run : (s.lane m).timer.state = .run) (other : n ≠ m) (wait : (s.lane n).timer.state = .wait)
    (chain : (s.lane n).timer.config.trigger = .chain m) (ht : exec (.gateTrigger p.frame [laneCode m]) s = .next t) :
    t.resetPhase = .released ∧ t.lane n = (s.lane n).withOffer ((s.lane n).timer.chainOffer.join (some p)) := by
  rw [exec_gateTrigger_run h run] at ht
  obtain rfl := Host.Outcome.next.inj ht
  refine ⟨?_, ?_⟩
  · rw [State.modLane_resetPhase, (SlotStep.closeInterval ..).resetPhase, replied_resetPhase, h.1.1]
  · rw [modLane_lane_ne other, closeInterval_lane_withOffer, if_neg other, replied_lane, offerAfterClose,
      if_pos ⟨.inr rfl, wait, chain⟩]

/-- Settles O60: a frame runs over `State.startOwed`, which starts the offered follower. -/
theorem framesFindEarlierEffects : Obligations.FramesFindEarlierEffects := by
  refine ⟨fun c f bs s u hw hc released late hu => ?_, fun c p bs m n s t h run other wait chain ht hw hc => ?_⟩
  · have howed : u = s.startOwed f.port := by
      rw [hu, State.startOwed, funext (startOwedAt_eq f.port)]
    rw [howed]
    exact ⟨exec_startOwed hw hc released late, framesTaken_startOwed released⟩
  · obtain ⟨released, lane⟩ := retrigger_follower h run other wait chain ht
    have waits : (t.lane n).timer.state = .wait := by
      rw [lane]
      exact wait
    have owed : (t.lane n).timer.chainOffer.owed p = true ∧ (t.lane n).timer.chainOffer.standing = true := by
      rw [lane]
      exact ⟨by rw [LaneState.withOffer, ChainOffer.join_owed, beq_self_eq_true, Bool.or_true], rfl⟩
    refine ⟨exec_startOwed hw hc released rfl, waits, ?_⟩
    rw [State.startOwed_lane, startOwedAt_eq, if_pos ⟨owed.1, owed.2, waits⟩]

end Sys2Proof.Machine
end

section
/-!
PROOF. Rate figures and thresholds (R140 to R147): a VALUE figure's exponent normalises the rate, and over a normalised
rate the exact threshold test is a comparison of the two pairs.
-/

namespace Sys2Proof.Machine

/-! ### Normalised rates -/

/-- E × 2^X / N stands in the range from 1/2 up to but not including 1 (R141). -/
structure Normalised (e n x : Nat) : Prop where
  below : e * 2 ^ x < n
  reaches : n ≤ e * 2 ^ (x + 1)

/-- The product that R141 divides and R146 compares. -/
theorem scaled_sixteen (e x : Nat) : e * 2 ^ (16 + x) = 65536 * (e * 2 ^ x) := by
  rw [Nat.pow_add]
  ring

theorem scaled_succ (e x : Nat) : e * 2 ^ (x + 1) = 2 * (e * 2 ^ x) := by
  ring

theorem scaled_mono (e : Nat) {x y : Nat} (h : x ≤ y) : e * 2 ^ x ≤ e * 2 ^ y :=
  Nat.mul_le_mul_left e (Nat.pow_le_pow_right Nat.two_pos h)

/-- An exponent that reaches N, when none before it does, normalises the rate. -/
theorem normalised_of_least {e n x : Nat} (value : e < n) (reaches : n ≤ e * 2 ^ (x + 1))
    (least : ∀ y < x, e * 2 ^ (y + 1) < n) : Normalised e n x := by
  refine ⟨?_, reaches⟩
  cases x with
  | zero => simpa using value
  | succ y => exact least y (Nat.lt_succ_self y)

/-- R141: the mantissa is from 32768 to 65535. -/
theorem Normalised.mantissa_bounds {e n x : Nat} (h : Normalised e n x) :
    32768 ≤ figureMantissa e n x ∧ figureMantissa e n x < 65536 := by
  obtain ⟨below, reaches⟩ := h
  have pos : 0 < n := by omega
  rw [scaled_succ] at reaches
  rw [figureMantissa, scaled_sixteen, Nat.le_div_iff_mul_le pos, Nat.div_lt_iff_lt_mul pos]
  omega

/-! ### Classes of figures -/

theorem rateFigure_none (e : Nat) : rateFigure e 0 = { m := 0, x := 63, clamped := false } := rfl

theorem rateFigure_zero {n : Nat} (compared : n ≠ 0) :
    rateFigure 0 n = { m := 0, x := 0, clamped := false } := by
  rw [rateFigure, if_neg compared, if_pos rfl]

theorem rateFigure_unity {e n : Nat} (compared : n ≠ 0) (unity : n ≤ e) :
    rateFigure e n = { m := 65535, x := 0, clamped := true } := by
  rw [rateFigure, if_neg compared, if_neg (by omega), if_pos unity]

theorem rateFigure_value {e n : Nat} (errored : 0 < e) (value : e < n) :
    rateFigure e n =
      { m := BitVec.ofNat 16 (figureMantissa e n (figureExponent e n))
        x := BitVec.ofNat 8 (figureExponent e n)
        clamped := false } := by
  rw [rateFigure, if_neg (by omega), if_neg (by omega), if_neg (by omega)]

/-- R141, R143: the exponent of counts that the part can hold is the least that reaches N, and 55 reaches every N. -/
theorem figureExponent_least {e n : Nat} (errored : 0 < e) (held : n < 2 ^ 56) :
    figureExponent e n ≤ 55 ∧ n ≤ e * 2 ^ (figureExponent e n + 1) ∧
      ∀ y < figureExponent e n, e * 2 ^ (y + 1) < n := by
  have reached : n ≤ e * 2 ^ (55 + 1) := held.le.trans (Nat.le_mul_of_pos_left _ errored)
  have exists_reaching : ∃ x, n ≤ e * 2 ^ (x + 1) := ⟨55, reached⟩
  have bound : Nat.find exists_reaching ≤ 55 := Nat.find_min' exists_reaching reached
  have found : figureExponent e n = Nat.find exists_reaching := by
    have first : (List.range 64).find? (fun x => n ≤ e * 2 ^ (x + 1)) = some (Nat.find exists_reaching) := by
      rw [List.find?_range_eq_some]
      refine ⟨decide_eq_true (Nat.find_spec exists_reaching), List.mem_range.mpr (by omega), fun y hy => ?_⟩
      simpa using Nat.find_min exists_reaching hy
    rw [figureExponent, first, Option.getD_some]
  rw [found]
  exact ⟨bound, Nat.find_spec exists_reaching, fun y hy => Nat.lt_of_not_le (Nat.find_min exists_reaching hy)⟩

theorem normalised_figureExponent {e n : Nat} (errored : 0 < e) (value : e < n) (held : n < 2 ^ 56) :
    Normalised e n (figureExponent e n) := by
  obtain ⟨-, reaches, least⟩ := figureExponent_least errored held
  exact normalised_of_least value reaches least

/-- R143: the exponent of a VALUE figure fits its byte. -/
theorem rateFigure_x_toNat {e n : Nat} (errored : 0 < e) (value : e < n) (held : n < 2 ^ 56) :
    (rateFigure e n).x.toNat = figureExponent e n := by
  obtain ⟨bound, -⟩ := figureExponent_least errored held
  rw [rateFigure_value errored value, BitVec.toNat_ofNat, Nat.mod_eq_of_lt (by omega)]

/-- R143: the mantissa of a VALUE figure fits its two bytes. -/
theorem rateFigure_m_toNat {e n : Nat} (errored : 0 < e) (value : e < n) (held : n < 2 ^ 56) :
    (rateFigure e n).m.toNat = figureMantissa e n (figureExponent e n) := by
  obtain ⟨-, fits⟩ := (normalised_figureExponent errored value held).mantissa_bounds
  rw [rateFigure_value errored value, BitVec.toNat_ofNat, Nat.mod_eq_of_lt fits]

/-! ### The exact test -/

theorem exceeds_iff (th : Threshold) (e n : Nat) :
    exceeds th e n = true ↔ th.tm ≠ 0 ∧ n ≠ 0 ∧ th.tm.toNat * n < e * 2 ^ (16 + th.tx.toNat) := by
  simp only [exceeds, Bool.and_eq_true, bne_iff_ne, decide_eq_true_eq, and_assoc]

/-- R146: no pair exceeds a disabled threshold, and NONE and ZERO exceed none. -/
theorem exceeds_eq_false {th : Threshold} {e n : Nat} (h : th.tm = 0 ∨ n = 0 ∨ e = 0) : exceeds th e n = false := by
  rw [Bool.eq_false_iff, Ne, exceeds_iff]
  rintro ⟨enabled, compared, more⟩
  obtain disabled | none | rfl := h
  · exact enabled disabled
  · exact compared none
  · omega

/-- R145: a threshold with its mantissa's top bit set is enabled, so the inequality alone decides the test. -/
theorem exceeds_iff_of_enabled {th : Threshold} {e n : Nat} (enabled : 32768 ≤ th.tm.toNat) (compared : 0 < n) :
    exceeds th e n = true ↔ th.tm.toNat * n < e * 2 ^ (16 + th.tx.toNat) := by
  have nonzero : th.tm ≠ 0 := by bv_omega
  rw [exceeds_iff, and_iff_right nonzero, and_iff_right compared.ne']

/-- R146: with E ≥ N the left side is at least N × 2^16. -/
theorem exceeds_unity {th : Threshold} {e n : Nat} (enabled : 32768 ≤ th.tm.toNat) (compared : 0 < n)
    (unity : n ≤ e) : exceeds th e n = true := by
  rw [exceeds_iff_of_enabled enabled compared]
  calc th.tm.toNat * n < 2 ^ 16 * n := Nat.mul_lt_mul_of_pos_right th.tm.isLt compared
    _ ≤ 2 ^ 16 * e := Nat.mul_le_mul_left _ unity
    _ = e * 2 ^ (16 + 0) := Nat.mul_comm ..
    _ ≤ e * 2 ^ (16 + th.tx.toNat) := scaled_mono e (by omega)

/-! ### The test by the figure -/

/-- R147: with a smaller exponent the figure stands above every mantissa. -/
theorem Normalised.lt_of_exponent_lt {e n x tm tx : Nat} (h : Normalised e n x) (mantissa : tm < 2 ^ 16) (lt : x < tx) :
    tm * n < e * 2 ^ (16 + tx) := by
  have pos : 0 < n := Nat.zero_lt_of_lt h.below
  calc tm * n < 2 ^ 16 * n := Nat.mul_lt_mul_of_pos_right mantissa pos
    _ ≤ 65536 * (e * 2 ^ (x + 1)) := Nat.mul_le_mul_left _ h.reaches
    _ ≤ 65536 * (e * 2 ^ tx) := Nat.mul_le_mul_left _ (scaled_mono e lt)
    _ = e * 2 ^ (16 + tx) := (scaled_sixteen e tx).symm

/-- R147: with a larger exponent the figure stands below the least mantissa. -/
theorem Normalised.le_of_exponent_gt {e n x tm tx : Nat} (h : Normalised e n x) (enabled : 32768 ≤ tm) (gt : tx < x) :
    e * 2 ^ (16 + tx) ≤ tm * n := by
  calc e * 2 ^ (16 + tx) = 32768 * (e * 2 ^ (tx + 1)) := by rw [scaled_sixteen, scaled_succ]; omega
    _ ≤ 32768 * (e * 2 ^ x) := Nat.mul_le_mul_left _ (scaled_mono e gt)
    _ ≤ 32768 * n := Nat.mul_le_mul_left _ h.below.le
    _ ≤ tm * n := Nat.mul_le_mul_right _ enabled

/-- A product is below a dividend when its factor is below the quotient, or is the quotient and a remainder is left. -/
theorem mul_lt_iff_quotient {a n : Nat} (pos : 0 < n) (q : Nat) :
    q * n < a ↔ q < a / n ∨ (a / n = q ∧ a % n ≠ 0) := by
  have division : a / n * n + a % n = a := Nat.div_add_mod' a n
  obtain below | rfl | above := lt_trichotomy q (a / n)
  · have within : (q + 1) * n ≤ a := (Nat.le_div_iff_mul_le pos).mp below
    rw [Nat.add_one_mul] at within
    exact iff_of_true (by omega) (.inl below)
  · constructor
    · exact fun less => .inr ⟨rfl, by omega⟩
    · rintro (less | ⟨-, remainder⟩)
      · exact absurd less (Nat.lt_irrefl _)
      · omega
  · have past : a < q * n := (Nat.div_lt_iff_lt_mul pos).mp above
    exact iff_of_false (by omega) (by omega)

/-- R147: the lines of the table, over any normalised rate. -/
theorem Normalised.exceeds_iff_figure {e n x tm tx : Nat} (h : Normalised e n x) (enabled : 32768 ≤ tm)
    (mantissa : tm < 2 ^ 16) :
    tm * n < e * 2 ^ (16 + tx) ↔
      x < tx ∨ (x = tx ∧
        (tm < figureMantissa e n x ∨ (figureMantissa e n x = tm ∧ e * 2 ^ (16 + x) % n ≠ 0))) := by
  obtain lt | rfl | gt := lt_trichotomy x tx
  · exact iff_of_true (h.lt_of_exponent_lt mantissa lt) (.inl lt)
  · have test := mul_lt_iff_quotient (a := e * 2 ^ (16 + x)) (Nat.zero_lt_of_lt h.below) tm
    simpa only [figureMantissa, Nat.lt_irrefl, false_or, true_and] using test
  · have within := h.le_of_exponent_gt enabled gt
    exact iff_of_false (by omega) (by omega)

/-- Settles O45: the exponent of a VALUE figure normalises the rate, and the rest is read off a normalised rate. -/
theorem rateFiguresAgreeWithThresholds : Obligations.RateFiguresAgreeWithThresholds := by
  refine ⟨?_, ?_⟩
  · rintro e n f held rfl
    refine ⟨?_, ?_, rateFigure_unity, fun errored value => ?_⟩
    · rintro rfl
      exact rateFigure_none e
    · rintro compared rfl
      exact rateFigure_zero compared
    · obtain ⟨bound, reaches, least⟩ := figureExponent_least errored held
      rw [rateFigure_x_toNat errored value held, rateFigure_m_toNat errored value held]
      exact ⟨congrArg RateFigure.clamped (rateFigure_value errored value),
        (normalised_of_least value reaches least).mantissa_bounds.1, bound, reaches, least, rfl⟩
  · rintro e n th f held rfl
    refine ⟨fun enabled compared => ?_, exceeds_eq_false, exceeds_unity, fun enabled errored value => ?_⟩
    · rw [exceeds_iff, and_iff_right enabled, and_iff_right compared]
    · rw [exceeds_iff_of_enabled enabled (errored.trans value), rateFigure_x_toNat errored value held,
        rateFigure_m_toNat errored value held]
      exact (normalised_figureExponent errored value held).exceeds_iff_figure enabled th.tm.isLt

end Sys2Proof.Machine
end

section
/-!
PROOF. The result rings stay sound (R150 to R152, R155, R157, R158): what a push, a read, a clear and a reset leave of
one ring and one cursor on it, then every operation, command and line event over the whole part.
-/

namespace Sys2Proof.Machine

/-! ### One ring and one cursor on it -/

/-- A cursor of which no more records are unread than the ring holds (R151). -/
def CursorWithin (g : Ring) (c : ResultCursor) : Prop := (unread g c).toNat ≤ g.records.length

theorem ringsSound_iff {s : State} : RingsSound s ↔
    ∀ n, RingSound (s.lane n).ring ∧ ∀ p, CursorWithin (s.lane n).ring (s.port p).results[n] :=
  Iff.rfl

section
variable {g : Ring} {c : ResultCursor}

/-- The oldest record is as far behind next_seq as the ring holds records (R150). -/
theorem RingSound.oldest (h : RingSound g) {old : IntervalRecord} (head : g.records.head? = some old) :
    old.sequence = g.nextSeq - BitVec.ofNat 32 g.records.length := by
  obtain ⟨-, sequence⟩ := h
  obtain ⟨rest, hrecords⟩ := List.head?_eq_some_iff.mp head
  have first := sequence 0 (by simp [hrecords])
  simpa [hrecords] using first

/-- A ring without its oldest record. -/
theorem RingSound.tail (h : RingSound g) : RingSound { g with records := g.records.tail } := by
  obtain ⟨size, sequence⟩ := h
  refine ⟨by simp only [List.length_tail]; omega, fun k hk => ?_⟩
  simp only [List.length_tail] at hk
  have length : BitVec.ofNat 32 g.records.length = BitVec.ofNat 32 (g.records.length - 1) + 1 := by
    have split : g.records.length = g.records.length - 1 + 1 := (Nat.sub_add_cancel (by omega)).symm
    exact (congrArg (BitVec.ofNat 32) split).trans (BitVec.ofNat_add ..)
  have index : BitVec.ofNat 32 (k + 1) = BitVec.ofNat 32 k + 1 := BitVec.ofNat_add ..
  simp only [List.getElem_tail, List.length_tail, sequence (k + 1) (by omega), length, index]
  ring

/-- A record put behind those of a ring with room, under the next sequence number (R152). -/
theorem RingSound.append (h : RingSound g) (room : g.records.length < 16) (r : IntervalRecord) :
    RingSound { records := g.records ++ [{ r with sequence := g.nextSeq }], nextSeq := g.nextSeq + 1 } := by
  obtain ⟨-, sequence⟩ := h
  have length : BitVec.ofNat 32 (g.records.length + 1) = BitVec.ofNat 32 g.records.length + 1 := BitVec.ofNat_add ..
  refine ⟨by simp only [List.length_append, List.length_singleton]; omega, fun k hk => ?_⟩
  simp only [List.length_append, List.length_singleton] at hk
  simp only [List.length_append, List.length_singleton, length]
  by_cases held : k < g.records.length
  · rw [List.getElem_append_left held, sequence k held]
    ring
  · obtain rfl : k = g.records.length := by omega
    rw [List.getElem_concat_length rfl]
    ring

/-- A push keeps a ring sound: a full ring first drops its oldest record (R152). -/
theorem RingSound.push (h : RingSound g) (r : IntervalRecord) : RingSound (g.push r) := by
  have size := h.1
  unfold Ring.push
  split
  · exact h.tail.append (by simp only [List.length_tail]; omega) r
  · exact h.append (by omega) r

theorem length_push (h : RingSound g) (r : IntervalRecord) :
    (g.push r).records.length = min (g.records.length + 1) 16 := by
  have size := h.1
  unfold Ring.push
  split
  · simp only [List.length_append, List.length_tail, List.length_singleton]; omega
  · simp only [List.length_append, List.length_singleton]; omega

/-- A push adds a record to read and charges the cursor that named the record it drops (R152). -/
theorem CursorWithin.push {n : Lane} {v : PortState} (h : RingSound g) (within : CursorWithin g v.results[n])
    (r : IntervalRecord) : CursorWithin (g.push r) (g.chargeOldest n v).results[n] := by
  have size := h.1
  have nextSeq : (g.push r).nextSeq = g.nextSeq + 1 := rfl
  unfold CursorWithin unread at within ⊢
  rw [nextSeq, length_push h]
  by_cases full : 16 ≤ g.records.length
  · obtain ⟨old, head⟩ : ∃ old, g.records.head? = some old :=
      ⟨_, List.head?_eq_some_head (List.ne_nil_of_length_pos (by omega))⟩
    have oldest : old.sequence = g.nextSeq - 16 := by
      rw [h.oldest head, show g.records.length = 16 by omega]
      rfl
    rw [Ring.chargeOldest_full full head, modResult_results, if_pos rfl, chargeRemoved, oldest]
    split
    · show (g.nextSeq + 1 - (v.results[n].next + 1)).toNat ≤ _
      bv_omega
    · bv_omega
  · rw [Ring.chargeOldest_room full]
    bv_omega

/-- A record read is no longer unread (R155). -/
theorem CursorWithin.read (within : CursorWithin g c) (behind : c.next ≠ g.nextSeq) :
    CursorWithin g (readCursor c) := by
  unfold CursorWithin unread readCursor at *
  bv_omega

/-- A cursor at next_seq has nothing to read. -/
theorem CursorWithin.of_next (next : c.next = g.nextSeq) : CursorWithin g c := by
  simp [CursorWithin, unread, next]

/-- The oldest held record has the whole ring to read from it (R158). -/
theorem cursorWithin_oldestCursor (h : RingSound g) : CursorWithin g (oldestCursor g) := by
  have size := h.1
  unfold oldestCursor
  split
  · rename_i old head
    unfold CursorWithin unread
    rw [h.oldest head, sub_sub_cancel, BitVec.toNat_ofNat]
    exact Nat.mod_le ..
  · exact .of_next rfl

theorem ringSound_nil (q : BitVec 32) : RingSound { records := [], nextSeq := q } :=
  ⟨Nat.zero_le _, fun _ hk => absurd hk (Nat.not_lt_zero _)⟩

end

/-! ### Changes of the part -/

section
variable {s t : State}

/-- The rings and the cursors are as they were. -/
theorem RingsSound.still (h : RingsSound s) (rings : ∀ m, (t.lane m).ring = (s.lane m).ring)
    (cursors : ∀ p, (t.port p).results = (s.port p).results) : RingsSound t := by
  rw [ringsSound_iff] at *
  intro m
  simp only [rings, cursors]
  exact h m

/-- The lanes are as they were, and the cursors. -/
theorem RingsSound.lanesStill (h : RingsSound s) (lanes : ∀ m, t.lane m = s.lane m)
    (cursors : ∀ p, (t.port p).results = (s.port p).results) : RingsSound t :=
  h.still (fun m => by rw [lanes]) cursors

/-- The ports are as they were, and the rings. -/
theorem RingsSound.portsStill (h : RingsSound s) (rings : ∀ m, (t.lane m).ring = (s.lane m).ring)
    (ports : ∀ p, t.port p = s.port p) : RingsSound t :=
  h.still rings fun p => by rw [ports]

/-- A change of a lane beside its ring. -/
theorem RingsSound.beside (h : RingsSound s) (n : Lane) {f : LaneState → LaneState}
    (ring : (f (s.lane n)).ring = (s.lane n).ring) : RingsSound (s.modLane n f) := by
  refine h.portsStill (fun m => ?_) fun p => State.modLane_port ..
  rw [State.modLane_lane]
  split
  · subst m; exact ring
  · rfl

/-- A change of a port beside its cursors. -/
theorem RingsSound.modPort (h : RingsSound s) (p : Port) {f : PortState → PortState}
    (cursors : (f (s.port p)).results = (s.port p).results) : RingsSound (s.modPort p f) := by
  refine h.lanesStill (fun _ => State.modPort_lane ..) fun q => ?_
  rw [State.modPort_port]
  split
  · subst q; exact cursors
  · rfl

theorem RingsSound.raise (h : RingsSound s) (e : Event) : RingsSound (s.raise e) :=
  h.lanesStill (fun _ => State.raise_lane ..) fun p => by rw [State.raise_port]

theorem RingsSound.startOwed (h : RingsSound s) (p : Port) : RingsSound (s.startOwed p) :=
  h.portsStill (fun m => by rw [State.startOwed_lane, startOwedAt_ring]) fun q => State.startOwed_port ..

theorem RingsSound.respond (h : RingsSound s) (p : Port) (r : Response) : RingsSound (s.respond p r) :=
  h.modPort p rfl

/-! ### Closes and units -/

theorem closeInterval_results_ne {n m : Lane} (hm : m ≠ n) (cause : CloseCause) (sender : Option Port) (p : Port) :
    ((closeInterval s n cause sender).port p).results[m] = (s.port p).results[m] :=
  (CloseKept.closeInterval s n cause sender p).results m hm

/-- A close pushes at most one record to its lane's ring (R136, R152). -/
theorem RingsSound.closeInterval (h : RingsSound s) (n : Lane) (cause : CloseCause) (sender : Option Port) :
    RingsSound (closeInterval s n cause sender) := by
  rw [ringsSound_iff] at *
  intro m
  obtain ⟨sound, within⟩ := h m
  by_cases hm : m = n
  · subst m
    rw [closeInterval_ring, closedLane]
    simp only [closeInterval_port, closedPort]
    split
    · exact ⟨sound.push _, fun p => .push sound (within p) _⟩
    · exact ⟨sound, within⟩
  · have ring : ((Machine.closeInterval s n cause sender).lane m).ring = (s.lane m).ring := by
      rw [closeInterval_lane_withOffer, if_neg hm]
      rfl
    simp only [ring, closeInterval_results_ne hm]
    exact ⟨sound, within⟩

theorem RingsSound.closeAndStop (h : RingsSound s) (n : Lane) (cause : CloseCause) :
    RingsSound (closeAndStop s n cause) :=
  (h.closeInterval n cause none).beside n rfl

theorem RingsSound.closeAndRestart (h : RingsSound s) (n : Lane) (cause : CloseCause) (sender : Option Port) :
    RingsSound (closeAndRestart s n cause sender) :=
  (h.closeInterval n cause sender).beside n rfl

theorem RingsSound.intervalExpiryIfDue (h : RingsSound s) (n : Lane) : RingsSound (intervalExpiryIfDue s n) := by
  simp only [Machine.intervalExpiryIfDue]
  split
  · split
    · exact h.closeAndStop n _
    · exact h.closeAndRestart n _ _
  · exact h

theorem sliceCloseIfDue_ring (l : LaneState) : (sliceCloseIfDue l).ring = l.ring := by
  unfold sliceCloseIfDue
  split <;> rfl

theorem RingsSound.countUnit (h : RingsSound s) (n : Lane) : RingsSound (countUnit s n) :=
  (h.beside n (f := fun l => sliceCloseIfDue l.withUnit) (sliceCloseIfDue_ring _)).intervalExpiryIfDue n

theorem RingsSound.tickTimer (h : RingsSound s) (n : Lane) : RingsSound (tickTimer s n) := by
  unfold Machine.tickTimer
  split
  · exact h.countUnit n
  · exact h

theorem RingsSound.stopTimer (h : RingsSound s) (n : Lane) : RingsSound (stopTimer s n) := by
  unfold Machine.stopTimer
  split
  · exact h
  · exact h.beside n rfl
  · exact h.closeAndStop n _

/-! ### Words -/

theorem RingsSound.setRun (h : RingsSound s) (n : Lane) (run : RunTotals × Bool) : RingsSound (setRun s n run) := by
  simp only [Machine.setRun]
  split
  · exact (h.beside n rfl).raise _
  · exact h.beside n rfl

theorem RingsSound.setInterval (h : RingsSound s) (n : Lane) (a : IntervalAcc × Bool) :
    RingsSound (setInterval s n a) := by
  simp only [Machine.setInterval]
  split
  · exact (h.beside n rfl).raise _
  · exact h.beside n rfl

theorem RingsSound.accumulate (h : RingsSound s) (n : Lane) (c e : Nat) :
    RingsSound (accumulatedUnit (accumulateInterval (accumulateRun s n c e) n c e) n) := by
  have interval : ∀ {u}, RingsSound u → RingsSound (accumulateInterval u n c e) := fun hu => by
    unfold accumulateInterval
    split
    · exact hu.setInterval n _
    · exact hu
  have unit : ∀ {u}, RingsSound u → RingsSound (accumulatedUnit u n) := fun hu => by
    unfold accumulatedUnit
    split
    · exact hu.countUnit n
    · exact hu
  exact unit (interval (h.setRun n _))

/-- A change of a checker. -/
theorem RingsSound.modChecker (h : RingsSound s) (n : Lane) (f : Checker → Checker) :
    RingsSound (s.modLane n fun l => l.modChecker f) :=
  h.beside n rfl

theorem RingsSound.gainLock (h : RingsSound s) (n : Lane) (c : Checker) : RingsSound (gainLock s n c) := by
  simp only [Machine.gainLock]
  refine (((h.modChecker n _).setRun n _).beside n ?_).raise _
  split <;> rfl

theorem RingsSound.loseLock (h : RingsSound s) (n : Lane) : RingsSound (loseLock s n) := by
  simp only [Machine.loseLock]
  refine (((h.modChecker n _).setRun n _).beside n ?_).raise _
  split <;> rfl

theorem RingsSound.searchWord {n : Lane} {w : Word} (h : RingsSound s) (ht : searchWord s n w = .ok t) :
    RingsSound t := by
  simp only [Machine.searchWord] at ht
  split at ht
  · split at ht <;> cases ht
    split
    · exact h.modChecker n _
    · exact h
  · split at ht
    · cases ht
    · split at ht <;> cases ht
      · exact h
      · exact h.modChecker n _

theorem RingsSound.verifyWord (h : RingsSound s) (n : Lane) (x : Expected) (w : Word) :
    RingsSound (verifyWord s n x w) := by
  unfold Machine.verifyWord
  split
  · exact h.modChecker n _
  · split
    · split
      · exact h.modChecker n _
      · exact h.gainLock n _
    · exact h.modChecker n _

theorem RingsSound.lockedWord (h : RingsSound s) (n : Lane) (x : Expected) (w : Word) :
    RingsSound (lockedWord s n x w) := by
  unfold Machine.lockedWord
  split
  · exact h.modChecker n _
  · rename_i ref mask _
    have counted := h.accumulate n (ones mask) (erroredBits w ref mask)
    simp only [moveSlip]
    split
    · exact counted.loseLock n
    · exact counted.modChecker n _

theorem RingsSound.deliverTo {src : Source} {w : Word} {n : Lane} (h : RingsSound s)
    (ht : deliverTo src w s n = .ok t) : RingsSound t := by
  simp only [Machine.deliverTo, receiveAt] at ht
  split at ht
  · split at ht
    · cases ht
      exact h
    · exact h.searchWord ht
    · split at ht <;> cases ht
      exact h.verifyWord n _ w
    · split at ht <;> cases ht
      exact h.lockedWord n _ w
  · cases ht
    exact h

theorem RingsSound.deliver {src : Source} {w : Word} (h : RingsSound s) (ht : deliver src w s = .ok t) :
    RingsSound t := by
  obtain ⟨s0, s1, s2, h0, h1, h2, h3⟩ := deliver_ok ht
  exact (((h.deliverTo h0).deliverTo h1).deliverTo h2).deliverTo h3

/-! ### Triggers and slots -/

theorem RingsSound.takeTrigger (h : RingsSound s) (n : Lane) : RingsSound (takeTrigger s n).2 := by
  unfold Machine.takeTrigger
  split
  · exact h.beside n rfl
  · split
    · exact h
    · exact h.beside n rfl

theorem RingsSound.wordLimitIfReached (h : RingsSound s) (n : Lane) : RingsSound (wordLimitIfReached s n) := by
  unfold Machine.wordLimitIfReached
  split
  · exact (h.beside n rfl).raise _
  · exact h

theorem pauseEndIfDue_ring (l : LaneState) : (pauseEndIfDue l).ring = l.ring := by
  unfold pauseEndIfDue
  split <;> rfl

theorem RingsSound.pausingSlot (h : RingsSound s) (n : Lane) : RingsSound (pausingSlot s n) := by
  rw [pausingSlot_eq]
  exact ((h.beside n rfl).wordLimitIfReached n).beside n (pauseEndIfDue_ring _)

theorem RingsSound.endPass (h : RingsSound s) (n : Lane) : RingsSound (endPass s n) := by
  have latched : RingsSound (s.modLane n latchPass) := h.beside n rfl
  simp only [Machine.endPass, endRunByPasses, beginRun]
  split
  · exact latched.beside n rfl
  · split
    · exact (latched.beside n rfl).beside n rfl
    · exact (latched.beside n rfl).raise _

theorem RingsSound.afterPatternWord (h : RingsSound s) (n : Lane) (step : Option Advance) :
    RingsSound (afterPatternWord s n step) := by
  unfold Machine.afterPatternWord
  split
  · exact h.wordLimitIfReached n
  · split
    · exact h
    · exact h.beside n rfl
    · exact h.endPass n

theorem emitted_ring (n m : Lane) (w flips : Word) (used : InjectUnit) (prbs : BitVec 32) (s : State) :
    ((emitted n w flips used prbs s).lane m).ring = (s.lane m).ring := by
  rw [emitted_lane]
  split
  · subst m; exact creditLane_ring ..
  · exact creditLane_ring ..

theorem RingsSound.transmit {n : Lane} (h : RingsSound s) (ht : transmit s n = .ok t) : RingsSound t := by
  have placed : ∀ {u}, RingsSound u → ∀ w, RingsSound (placeWord u n w) := fun hu _ => hu.beside n rfl
  obtain ⟨w, u, hu, rfl | ⟨-, rfl⟩ | ⟨flips, used, prbs, step, -, rfl⟩⟩ := transmit_cases ht
  · exact (placed h w).deliver hu
  · exact (placed (h.pausingSlot n) w).deliver hu
  · have sent : RingsSound (emitted n w flips used prbs s) :=
      h.portsStill (fun m => emitted_ring ..) fun p => emitted_port ..
    exact (sent.afterPatternWord n step).deliver hu

/-! ### Commands on results -/

/-- A read moves the reader's cursor on one ring, on which it had a record to read (R155). -/
theorem RingsSound.read (h : RingsSound s) {p : Port} {n : Lane}
    (behind : (s.port p).results[n].next ≠ (s.lane n).ring.nextSeq) :
    RingsSound (s.modPort p fun v => v.modResult n readCursor) := by
  rw [ringsSound_iff] at *
  intro m
  obtain ⟨sound, within⟩ := h m
  rw [State.modPort_lane]
  refine ⟨sound, fun q => ?_⟩
  rw [State.modPort_port]
  split
  · subst q
    rw [modResult_results]
    split
    · subst m; exact (within p).read behind
    · exact within p
  · exact within q

/-- An emptied ring has nothing to read, and both ports' cursors stand at next_seq (R157). -/
theorem RingsSound.clearRing (h : RingsSound s) (n : Lane) : RingsSound (clearRing s n) := by
  rw [ringsSound_iff] at *
  intro m
  obtain ⟨sound, within⟩ := h m
  simp only [Machine.clearRing, State.modPorts_lane, State.modLane_lane, State.modPorts_port, State.modLane_port,
    modResult_results]
  split
  · exact ⟨ringSound_nil _, fun _ => .of_next rfl⟩
  · exact ⟨sound, within⟩

/-- PORT_RESET puts the port's cursors at the oldest held records (R158). -/
theorem RingsSound.resetPort (h : RingsSound s) (p : Port) :
    RingsSound ((releaseAll s p).modPort p (resetPort s)) := by
  rw [ringsSound_iff] at *
  intro m
  obtain ⟨sound, within⟩ := h m
  have lane : ((releaseAll s p).modPort p (Machine.resetPort s)).lane m = s.lane m := State.modPort_lane ..
  rw [lane]
  refine ⟨sound, fun q => ?_⟩
  rw [State.modPort_port, releaseAll_port, releaseAll_port]
  split
  · have reset : (Machine.resetPort s (s.port p)).results[m] = oldestCursor (s.lane m).ring := Vector.getElem_ofFn ..
    rw [reset]
    exact cursorWithin_oldestCursor sound
  · exact within q

/-! ### Commands, lines and the timebase -/

theorem RingsSound.invalidate (h : RingsSound s) (i : Fin 64) (slot : SegSlot) :
    RingsSound (invalidate (s.setSeg i slot) i) := by
  refine h.portsStill (fun m => ?_) fun p => by cases p <;> rfl
  rw [invalidate_lane, State.setSeg_lane]
  split <;> rfl

/-- CHECK_STOP closes a running interval (R84, R126). -/
theorem RingsSound.stopChecker (h : RingsSound s) (n : Lane) : RingsSound (stopChecker s n) := by
  have stopped : ∀ {u}, RingsSound u → RingsSound
      ((u.unmark (.checker n)).modLane n fun l => l.modChecker fun c => discardReference c .off) := fun hu =>
    (hu.portsStill (fun _ => by rw [State.unmark_lane]) fun _ => State.unmark_port ..).modChecker n _
  unfold Machine.stopChecker
  split
  · exact stopped (h.closeAndStop n _)
  · exact stopped h

theorem armTimer_ring (l : LaneState) : (armTimer l).ring = l.ring := by
  unfold armTimer
  split <;> rfl

theorem configureChecker_ring (cfg : CheckConfig) (l : LaneState) : (configureChecker cfg l).ring = l.ring := by
  unfold configureChecker
  split <;> rfl

/-- What the command of a frame leaves of the rings and cursors. -/
theorem Taken.rings {f : Select} {c : Instr} (taken : Taken f c s t) (h : RingsSound s) : RingsSound t := by
  have marked : ∀ reach w, RingsSound (s.mark reach w) := fun reach w =>
    h.lanesStill (fun _ => State.mark_lane ..) fun _ => by rw [State.mark_port]
  cases taken with
  | reads => exact h
  | readsFree => exact h.lanesStill (fun _ => rfl) fun _ => by rw [State.useFree_port]
  | reserve | release => exact h.lanesStill (fun _ => rfl) fun _ => by rw [State.setHolder_port]
  | eventClear | eventEnable | holdoffSet | segCursor | wordCursor => exact h.modPort _ rfl
  | portReset => exact h.resetPort _
  | segWrite args _ i sg => exact (h.invalidate i { s.seg i with record := some sg }).modPort _ rfl
  | segClear b _ i => exact h.invalidate i { s.seg i with record := none }
  | wordWrite =>
    have stored : ∀ m, RingsSound { s with store := m } := fun m =>
      h.lanesStill (fun _ => rfl) fun _ => by rw [State.withStore_port]
    exact (stored _).modPort _ rfl
  | planSet _ _ n | planCheck _ n | injectTotalsClear _ n | sigClear _ n | routeSet _ _ n | totalsClear _ n
  | gateStart _ n => exact h.beside n rfl
  | laneStart _ n => exact (marked _ _).beside n rfl
  | laneTrigger _ n => exact h.takeTrigger n
  | laneHalt _ n =>
    exact (h.lanesStill (fun _ => State.unmark_lane ..) fun _ => by rw [State.unmark_port]).beside n rfl
  | injectSet _ _ n x =>
    exact (h.beside n (f := setInjection x) rfl).lanesStill (fun _ => rfl) fun _ => by rw [State.useFree_port]
  | checkConfig _ n _ _ _ _ _ cfg => exact h.beside n (configureChecker_ring ..)
  | checkStart _ n => exact (marked _ _).beside n rfl
  | checkStop _ n => exact h.stopChecker n
  | gateConfig _ _ n cfg =>
    exact (h.beside n (f := fun l => { l with timer := { l.timer with config := cfg } }) rfl).lanesStill
      (fun _ => rfl) fun _ => by rw [State.useFree_port]
  | gateArm _ n => exact h.beside n (armTimer_ring _)
  | gateRetrigger _ n => exact h.closeAndRestart n _ _
  | gateStop _ n => exact h.stopTimer n
  | resultRead _ n r behind => exact h.read behind
  | resultClear _ n => exact h.clearRing n

theorem gateEdgeTaken_ring (level : Level) (l : LaneState) : (gateEdgeTaken level l).ring = l.ring := by
  simp only [gateEdgeTaken]
  split <;> rfl

theorem chainStartIfDue_ring (l : LaneState) : (chainStartIfDue l).ring = l.ring := by
  unfold chainStartIfDue
  split <;> rfl

/-- Every ring is empty and every cursor at next_seq after a device reset (R178). -/
theorem ringsSound_deviceResetState (s : State) (phase : ResetPhase) : RingsSound (deviceResetState s phase) := by
  rw [ringsSound_iff]
  intro m
  have cursor : ∀ p, ((deviceResetState s phase).port p).results[m] = { next := 0, skipped := 0 } := fun p => by
    cases p <;> exact Vector.getElem_replicate ..
  rw [deviceResetState_lane]
  exact ⟨ringSound_nil 0, fun p => .of_next (congrArg ResultCursor.next (cursor p))⟩

/-- What reaches the part by its lines, buses and timebase leaves of the rings and cursors. -/
theorem LineNext.rings {c : Instr} (line : LineNext c s t) (h : RingsSound s) : RingsSound t := by
  cases line with
  | deviceReset => exact ringsSound_deviceResetState s _
  | resetNReturnsHigh => exact h.lanesStill (fun _ => rfl) fun p => by cases p <;> rfl
  | noEdge => exact h
  | trigLine n level => exact h.beside n rfl
  | trigger n level => exact (h.beside n (f := fun l => { l with trigLine := level }) rfl).takeTrigger n
  | gateLine n level => exact h.beside n (gateEdgeTaken_ring ..)
  | transmit n _ _ slot => exact h.transmit slot
  | pauseEnd n => exact h.beside n (pauseEndIfDue_ring _)
  | wordLimit n => exact h.wordLimitIfReached n
  | receive m w _ _ word => exact h.deliver word
  | tick =>
    have ticked := (((h.tickTimer 0).tickTimer 1).tickTimer 2).tickTimer 3
    exact ticked.lanesStill (fun _ => State.modPorts_lane ..) fun _ => by rw [State.modPorts_port]; rfl
  | sliceClose n => exact h.beside n (sliceCloseIfDue_ring _)
  | intervalExpiry n => exact h.intervalExpiryIfDue n
  | chainStart n => exact h.beside n (chainStartIfDue_ring _)
  | holdoffExpiry p => exact h.modPort p rfl

/-- A refusal moves no cursor. -/
theorem RefusedAlike.rings {p : Port} (refused : RefusedAlike p s t) (h : RingsSound s) : RingsSound t := by
  refine h.lanesStill (fun m => by simp only [State.lane, refused.lanes]) fun q => ?_
  by_cases hq : q = p
  · subst hq; exact refused.results
  · rw [eq_otherPort hq, refused.other]

/-- A frame first does what its port's earlier commands owe (R183). -/
theorem FrameNext.rings {f : Select} {c : Instr} (frame : FrameNext f c s t) (h : RingsSound s) : RingsSound t := by
  rcases frame with rfl | ⟨-, -, refused | ⟨len, u, r, taken, rfl⟩⟩
  · exact h
  · exact refused.rings (h.startOwed f.port)
  · exact (taken.rings (h.shifted f.port f.port len)).respond f.port r

end

/-- Settles O53: a push, a read, a clear and the resets are all that moves a ring or a cursor, and each keeps the
cursors within the ring. -/
theorem ringsStaySound : Obligations.RingsStaySound := by
  intro s t hs h
  unfold step at h
  split at h
  · cases h
    exact hs
  · rename_i c rest _
    have dequeued : RingsSound { s with pending := rest } :=
      hs.lanesStill (fun _ => rfl) fun p => by rw [State.withPending_port]
    rcases exec_cases h with ⟨f, bs, -, frame⟩ | line
    · exact frame.rings dequeued
    · exact line.rings dequeued

end Sys2Proof.Machine
end

section
/-!
PROOF. The bytes of an interval record (R181, Table 11-5): a list of bytes read through the parts it is put together
from, and where each part of a record stands.
-/

namespace Sys2Proof.Machine

/-! ### Parts of a byte list -/

/-- The bytes before part i. -/
def bytesBefore (parts : List (List Byte)) (i : Nat) : Nat := ((parts.map List.length).take i).sum

section
variable {parts : List (List Byte)} {part : List Byte} {i j off len : Nat}

/-- A field within a part stands behind the bytes of the parts before it. -/
theorem fieldAt_flatten (here : parts[i]? = some part) (before : bytesBefore parts i + j = off)
    (within : j + len ≤ part.length) : fieldAt parts.flatten off len = fieldAt part j len := by
  obtain ⟨hi, rfl⟩ := List.getElem?_eq_some_iff.mp here
  have split : parts.flatten = (parts.take i).flatten ++ (parts[i] ++ (parts.drop (i + 1)).flatten) := by
    rw [← List.flatten_cons, ← List.drop_eq_getElem_cons hi, ← List.flatten_append, List.take_append_drop]
  have offset : (parts.take i).flatten.length + j = off := by rw [List.length_flatten, List.map_take]; exact before
  rw [split, fieldAt_append _ _ _ _ (by omega), ← offset, Nat.add_sub_cancel_left, fieldAt,
    List.drop_append_of_le_length (by omega), List.take_append_of_le_length (by simp only [List.length_drop]; omega),
    fieldAt]

/-- A part that spells a word is read back as that word. -/
theorem fieldAt_flatten_beOf {w : Nat} {v : BitVec w} (here : parts[i]? = some (beOf len v))
    (before : bytesBefore parts i = off) (fits : w ≤ 8 * len) :
    fieldAt parts.flatten off len = v.toNat := by
  rw [fieldAt_flatten (j := 0) here before (by simp), ← fieldAt_beOf len v [] fits, List.append_nil]

/-- A byte is the field of its one byte. -/
theorem byteAt_toNat (bs : List Byte) (i : Nat) : (byteAt bs i).toNat = fieldAt bs i 1 := by
  rw [fieldAt, byteAt, List.take_one, List.head?_drop, List.getD_eq_getElem?_getD]
  cases bs[i]? with
  | none => rfl
  | some b => exact (ofBe_singleton b).symm

/-- A byte of a part stands behind the bytes of the parts before it. -/
theorem byteAt_flatten {b : Byte} (here : parts[i]? = some part) (byte : part[j]? = some b)
    (before : bytesBefore parts i + j = off) : byteAt parts.flatten off = b := by
  obtain ⟨hj, rfl⟩ := List.getElem?_eq_some_iff.mp byte
  apply BitVec.eq_of_toNat_eq
  rw [byteAt_toNat, fieldAt_flatten here before (by omega), ← byteAt_toNat, byteAt, List.getD_eq_getElem _ _ hj]

end

/-! ### The worst-slice list -/

/-- An entry of a worst-slice list takes 7 bytes. -/
theorem length_worstBytes (ws : List WorstEntry) : (worstBytes ws).length = 7 * ws.length := by
  simp [worstBytes, List.length_flatMap, Nat.mul_comm]

/-- An entry stands behind those before it: its index, and then its bits. -/
theorem fieldAt_worstBytes (ws : List WorstEntry) (k : Nat) (h : k < ws.length) :
    fieldAt (worstBytes ws) (7 * k) 3 = ws[k].index.toNat ∧
      fieldAt (worstBytes ws) (7 * k + 3) 4 = ws[k].bits.toNat := by
  have parts : worstBytes ws =
      [worstBytes (ws.take k), beOf 3 ws[k].index, beOf 4 ws[k].bits, worstBytes (ws.drop (k + 1))].flatten := by
    have split : ws = ws.take k ++ ws[k] :: ws.drop (k + 1) := by
      rw [← List.drop_eq_getElem_cons h, List.take_append_drop]
    refine (congrArg worstBytes split).trans ?_
    simp only [worstBytes, List.flatMap_append, List.flatMap_cons, List.flatten_cons, List.flatten_nil, List.append_nil,
      List.append_assoc]
  have before : (worstBytes (ws.take k)).length = 7 * k := by
    rw [length_worstBytes, List.length_take, Nat.min_eq_left h.le]
  rw [parts]
  exact ⟨fieldAt_flatten_beOf (i := 1) rfl (by simp [bytesBefore, before]) (by norm_num),
    fieldAt_flatten_beOf (i := 2) rfl (by simp [bytesBefore, before]) (by norm_num)⟩

/-! ### The parts of a record -/

/-- A flag is the bit that Table 11-5 gives it. -/
theorem recordFlags_getLsbD (r : IntervalRecord) :
    (recordFlags r).getLsbD 7 = r.alarm ∧ (recordFlags r).getLsbD 6 = r.figure.clamped ∧
      (recordFlags r).getLsbD 5 = r.comparedSaturated ∧ (recordFlags r).getLsbD 4 = r.erroredSaturated ∧
      (recordFlags r).getLsbD 3 = r.wordsSaturated ∧ (recordFlags r).getLsbD 2 = r.tallies.isSome ∧
      (recordFlags r).getLsbD 1 = r.firstError.isSome ∧ (recordFlags r).getLsbD 0 = r.injected.isSome := by
  unfold recordFlags
  generalize r.alarm = b7, r.figure.clamped = b6, r.comparedSaturated = b5, r.erroredSaturated = b4,
    r.wordsSaturated = b3, r.tallies.isSome = b2, r.firstError.isSome = b1, r.injected.isSome = b0
  revert b7 b6 b5 b4 b3 b2 b1 b0
  decide

/-- The parts of a record, in the order of Table 11-5. -/
def recordParts (r : IntervalRecord) : List (List Byte) :=
  [beOf 4 r.sequence, [laneCode r.lane], [closeCauseCode (some r.cause)], [timerUnitCode r.unit], [recordFlags r],
    beOf 3 r.elapsed, beOf 6 r.compared, beOf 5 r.errored, beOf 4 r.words, beOf 2 r.figure.m, [r.figure.x],
    beOf 3 r.slicesClosed, beOf 3 r.clean, beOf 3 r.erroredSlices, beOf 3 r.severe, beOf 3 r.unavailable,
    beOf 2 r.gains, beOf 2 r.losses, [BitVec.ofNat 8 r.worst.length], tallyBytes r.tallies,
    presentBytes 6 r.firstError, presentBytes 4 r.injected, worstBytes r.worst]

theorem recordBytes_eq (r : IntervalRecord) : recordBytes r = (recordParts r).flatten := by
  simp [recordBytes, recordFixed, recordParts]

theorem length_tallyBytes (o : Option WrapTallies) : (tallyBytes o).length = if o.isSome then 3 else 0 := by
  cases o <;> rfl

theorem length_presentBytes {w : Nat} (k : Nat) (o : Option (BitVec w)) :
    (presentBytes k o).length = if o.isSome then k else 0 := by
  cases o with
  | none => rfl
  | some v => exact length_beOf ..

section
variable (r : IntervalRecord)

/-- The lengths of a record's parts (Table 11-5, R181). -/
def recordLengths : List Nat :=
  [4, 1, 1, 1, 1, 3, 6, 5, 4, 2, 1, 3, 3, 3, 3, 3, 2, 2, 1, if r.tallies.isSome then 3 else 0,
    if r.firstError.isSome then 6 else 0, if r.injected.isSome then 4 else 0, 7 * r.worst.length]

theorem map_length_recordParts : (recordParts r).map List.length = recordLengths r := by
  simp only [recordParts, recordLengths, List.map_cons, List.map_nil, length_beOf, List.length_singleton,
    length_tallyBytes, length_presentBytes, length_worstBytes]

/-- The bytes of a record before its part i. -/
def recordOffset (i : Nat) : Nat := ((recordLengths r).take i).sum

theorem bytesBefore_recordParts (i : Nat) : bytesBefore (recordParts r) i = recordOffset r i := by
  rw [bytesBefore, map_length_recordParts, recordOffset]

/-- Where the first-error offset stands, if it does (R181). -/
theorem recordOffset_firstError : recordOffset r 20 = 49 + if r.tallies.isSome then 3 else 0 := by
  simp only [recordOffset, recordLengths, List.take, List.sum_cons, List.sum_nil]
  omega

/-- Where the injected bits stand, if they do (R181). -/
theorem recordOffset_injected : recordOffset r 21 = recordOffset r 20 + if r.firstError.isSome then 6 else 0 := by
  simp only [recordOffset, recordLengths, List.take, List.sum_cons, List.sum_nil]
  omega

/-- Where the worst-slice list stands (R181). -/
theorem recordOffset_worst : recordOffset r 22 = recordOffset r 21 + if r.injected.isSome then 4 else 0 := by
  simp only [recordOffset, recordLengths, List.take, List.sum_cons, List.sum_nil]
  omega

theorem length_recordBytes : (recordBytes r).length = recordOffset r 22 + 7 * r.worst.length := by
  rw [recordBytes_eq, List.length_flatten, map_length_recordParts]
  simp only [recordOffset, recordLengths, List.take, List.sum_cons, List.sum_nil]
  omega

section
variable {r} {part : List Byte} {i j off len w : Nat}

/-- A field within a part of a record stands behind the bytes of the parts before it. -/
theorem fieldAt_recordBytes (here : (recordParts r)[i]? = some part) (before : recordOffset r i + j = off)
    (within : j + len ≤ part.length) : fieldAt (recordBytes r) off len = fieldAt part j len := by
  rw [recordBytes_eq]
  exact fieldAt_flatten here (by rw [bytesBefore_recordParts, before]) within

/-- A number of a record, read where it stands. -/
theorem wordAt_recordBytes {v : BitVec w} (here : (recordParts r)[i]? = some (beOf len v))
    (before : recordOffset r i = off := by simp [recordOffset, recordLengths]) (fits : w ≤ 8 * len := by norm_num) :
    fieldAt (recordBytes r) off len = v.toNat := by
  rw [recordBytes_eq]
  exact fieldAt_flatten_beOf here (by rw [bytesBefore_recordParts, before]) fits

/-- A byte of a record, read where it stands. -/
theorem byteAt_recordBytes {b : Byte} (here : (recordParts r)[i]? = some part) (byte : part[j]? = some b)
    (before : recordOffset r i + j = off := by simp [recordOffset, recordLengths]) :
    byteAt (recordBytes r) off = b := by
  rw [recordBytes_eq]
  exact byteAt_flatten here byte (by rw [bytesBefore_recordParts, before])

end

/-- The numbers of the fixed part (Table 11-5). -/
theorem recordBytes_numbers :
    fieldAt (recordBytes r) 0 4 = r.sequence.toNat ∧ fieldAt (recordBytes r) 8 3 = r.elapsed.toNat ∧
    fieldAt (recordBytes r) 11 6 = r.compared.toNat ∧ fieldAt (recordBytes r) 17 5 = r.errored.toNat ∧
    fieldAt (recordBytes r) 22 4 = r.words.toNat ∧ fieldAt (recordBytes r) 26 2 = r.figure.m.toNat ∧
    fieldAt (recordBytes r) 29 3 = r.slicesClosed.toNat ∧ fieldAt (recordBytes r) 32 3 = r.clean.toNat ∧
    fieldAt (recordBytes r) 35 3 = r.erroredSlices.toNat ∧ fieldAt (recordBytes r) 38 3 = r.severe.toNat ∧
    fieldAt (recordBytes r) 41 3 = r.unavailable.toNat ∧ fieldAt (recordBytes r) 44 2 = r.gains.toNat ∧
    fieldAt (recordBytes r) 46 2 = r.losses.toNat :=
  ⟨wordAt_recordBytes (i := 0) rfl, wordAt_recordBytes (i := 5) rfl, wordAt_recordBytes (i := 6) rfl,
    wordAt_recordBytes (i := 7) rfl, wordAt_recordBytes (i := 8) rfl, wordAt_recordBytes (i := 9) rfl,
    wordAt_recordBytes (i := 11) rfl, wordAt_recordBytes (i := 12) rfl, wordAt_recordBytes (i := 13) rfl,
    wordAt_recordBytes (i := 14) rfl, wordAt_recordBytes (i := 15) rfl, wordAt_recordBytes (i := 16) rfl,
    wordAt_recordBytes (i := 17) rfl⟩

/-- The bytes of the fixed part that stand for themselves (Table 11-5). -/
theorem recordBytes_bytes :
    byteAt (recordBytes r) 4 = laneCode r.lane ∧ byteAt (recordBytes r) 5 = closeCauseCode (some r.cause) ∧
    byteAt (recordBytes r) 6 = timerUnitCode r.unit ∧ byteAt (recordBytes r) 7 = recordFlags r ∧
    byteAt (recordBytes r) 28 = r.figure.x ∧ byteAt (recordBytes r) 48 = BitVec.ofNat 8 r.worst.length :=
  ⟨byteAt_recordBytes (i := 1) (j := 0) rfl rfl, byteAt_recordBytes (i := 2) (j := 0) rfl rfl,
    byteAt_recordBytes (i := 3) (j := 0) rfl rfl, byteAt_recordBytes (i := 4) (j := 0) rfl rfl,
    byteAt_recordBytes (i := 10) (j := 0) rfl rfl, byteAt_recordBytes (i := 18) (j := 0) rfl rfl⟩

/-- The wrap tallies stand at byte 49 (R181). -/
theorem recordBytes_tallies {x : WrapTallies} (present : r.tallies = some x) :
    byteAt (recordBytes r) 49 = x.compared ∧ byteAt (recordBytes r) 50 = x.errored ∧
      byteAt (recordBytes r) 51 = x.words := by
  have here : (recordParts r)[19]? = some [x.compared, x.errored, x.words] := congrArg (some ∘ tallyBytes) present
  exact ⟨byteAt_recordBytes (j := 0) here rfl, byteAt_recordBytes (j := 1) here rfl,
    byteAt_recordBytes (j := 2) here rfl⟩

theorem recordBytes_firstError {v : BitVec 48} (present : r.firstError = some v) :
    fieldAt (recordBytes r) (recordOffset r 20) 6 = v.toNat :=
  wordAt_recordBytes (i := 20) (congrArg (some ∘ presentBytes 6) present) rfl

theorem recordBytes_injected {v : BitVec 32} (present : r.injected = some v) :
    fieldAt (recordBytes r) (recordOffset r 21) 4 = v.toNat :=
  wordAt_recordBytes (i := 21) (congrArg (some ∘ presentBytes 4) present) rfl

/-- The entries of the worst-slice list stand last, one after another (R181). -/
theorem recordBytes_worst (k : Nat) (h : k < r.worst.length) :
    fieldAt (recordBytes r) (recordOffset r 22 + 7 * k) 3 = r.worst[k].index.toNat ∧
      fieldAt (recordBytes r) (recordOffset r 22 + 7 * k + 3) 4 = r.worst[k].bits.toNat := by
  obtain ⟨index, bits⟩ := fieldAt_worstBytes r.worst k h
  have here : (recordParts r)[22]? = some (worstBytes r.worst) := rfl
  have length := length_worstBytes r.worst
  exact ⟨(fieldAt_recordBytes here rfl (by omega)).trans index,
    (fieldAt_recordBytes here (Nat.add_assoc ..).symm (by omega)).trans bits⟩

end

end Sys2Proof.Machine
end

section
/-!
PROOF. What a command does to result cursors (R155, R157, R158): RESULT_READ, RESULT_CLEAR and PORT_RESET.
-/

namespace Sys2Proof.Machine

/-! ### RESULT_READ (R155) -/

section
variable {g : Ring}

/-- The numbers of a sound ring's records differ. -/
theorem RingSound.sequence_ne (h : RingSound g) {j k : Nat} (hj : j < k) (hk : k < g.records.length) :
    g.records[j].sequence ≠ g.records[k].sequence := by
  obtain ⟨size, sequence⟩ := h
  rw [sequence j (by omega), sequence k hk]
  intro same
  have index : BitVec.ofNat 32 j = BitVec.ofNat 32 k := by simpa using same
  have := congrArg BitVec.toNat index
  simp only [BitVec.toNat_ofNat] at this
  omega

/-- A cursor at a held record's number names that record. -/
theorem namedRecord_getElem (h : RingSound g) {k : Nat} (hk : k < g.records.length) {c : ResultCursor}
    (named : c.next = g.records[k].sequence) : namedRecord g c = some g.records[k] := by
  rw [namedRecord, List.find?_eq_some_iff_getElem]
  refine ⟨by simp [named], k, hk, rfl, fun j hj => ?_⟩
  simpa [named] using h.sequence_ne hj hk

/-- The records that a cursor at record k has to read: that one and those behind it (R151). -/
theorem unread_toNat (h : RingSound g) {k : Nat} (hk : k < g.records.length) {c : ResultCursor}
    (named : c.next = g.records[k].sequence) : (unread g c).toNat = g.records.length - k := by
  obtain ⟨size, sequence⟩ := h
  rw [unread, named, sequence k hk]
  bv_omega

end

/-- What a frame shifts out moves no cursor. -/
theorem shifted_results (s : State) (p : Port) (len : Nat) :
    ((s.shifted p len).port p).results = (s.port p).results := by
  rw [State.shifted_port, if_pos rfl]

section
variable {s : State} {p : Port} (h : FramesTaken s p) (n : Lane)
include h

/-- A read at next_seq finds nothing and keeps the skipped count (R155). -/
theorem exec_resultRead_empty (next : (s.port p).results[n].next = (s.lane n).ring.nextSeq) :
    exec (.resultRead p.frame [laneCode n]) s =
      .next (replied p 2
        { status := .empty, code := 0x50,
          fields := laneCode n :: be 2 (s.port p).results[n].skipped.toNat ++ [0] } s) := by
  rw [exec, execResultRead]
  refine laneCommand_answered h n ?_
  simp only [State.shifted_lane, Port.frame_port, shifted_results, next, if_true]
  rfl

/-- A read of record k answers with it, and moves the reader's cursor past it (R155). -/
theorem exec_resultRead_record (sound : RingSound (s.lane n).ring) {k : Nat} (hk : k < (s.lane n).ring.records.length)
    (named : (s.port p).results[n].next = (s.lane n).ring.records[k].sequence) :
    exec (.resultRead p.frame [laneCode n]) s =
      .next ((replied p 2
        { status := .ok, code := 0x50,
          fields := laneCode n :: be 2 (s.port p).results[n].skipped.toNat ++
            be 1 ((s.lane n).ring.records.length - 1 - k) ++ recordBytes (s.lane n).ring.records[k] } s).modPort p
        fun v => v.modResult n readCursor) := by
  have toRead := unread_toNat sound hk named
  have behind : (s.port p).results[n].next ≠ (s.lane n).ring.nextSeq := fun next => by
    rw [unread, next, BitVec.sub_self] at toRead
    simp only [BitVec.toNat_zero] at toRead
    omega
  have left : (unread (s.lane n).ring (readCursor (s.port p).results[n])).toNat =
      (s.lane n).ring.records.length - 1 - k := by
    simp only [unread, readCursor] at toRead ⊢
    bv_omega
  rw [exec, execResultRead, laneCommand_read h]
  simp only [State.shifted_lane, Port.frame_port, shifted_results, if_neg behind, namedRecord_getElem sound hk named,
    beOf, left]
  rw [settle_done, shifted_modPort_respond _ _ _ _ _ fun _ => rfl]

end

/-! ### RESULT_CLEAR (R157) -/

/-- Rings and cursors emptied beside a reply (R161). -/
theorem clearRing_respond (s : State) (n : Lane) (p : Port) (r : Response) :
    (clearRing s n).respond p r = clearRing (s.respond p r) n := by
  cases p <;> rfl

theorem exec_resultClear {s : State} {p : Port} {n : Lane} (h : LaneOpen s p n) :
    exec (.resultClear p.frame [laneCode n]) s =
      .next (clearRing (replied p 2
        { status := .ok, code := 0x52, fields := laneCode n :: be 1 (s.lane n).ring.records.length } s) n) := by
  rw [exec, execResultClear, laneCommand_open h, settle_done, ← shifted_respond, State.shifted_lane, clearRing_respond]

/-- Settles O46: a record is read part by part, and RESULT_READ finds the record that its cursor numbers. -/
theorem resultCursorsFollowTheRing : Obligations.ResultCursorsFollowTheRing := by
  refine ⟨?record, ?read, ?clear⟩
  case record =>
    intro r bs o1 o2 o3 hbs ho1 ho2 ho3
    rw [← recordOffset_firstError] at ho1
    rw [ho1, ← recordOffset_injected] at ho2
    rw [ho2, ← recordOffset_worst] at ho3
    rw [hbs, ho1, ho2, ho3]
    obtain ⟨sequence, elapsed, compared, errored, words, mantissa, closed, clean, erroredSlices, severe, unavailable,
      gains, losses⟩ := recordBytes_numbers r
    obtain ⟨lane, cause, unit, flags, exponent, listed⟩ := recordBytes_bytes r
    refine ⟨length_recordBytes r, fun short => ⟨?atLeast, ?atMost, ?_⟩, sequence, ?_, ?_, ?_, ?_, elapsed, compared,
      errored, words, mantissa, exponent, closed, clean, erroredSlices, severe, unavailable, gains, losses,
      fun _ => recordBytes_tallies r, fun _ => recordBytes_firstError r, fun _ => recordBytes_injected r,
      recordBytes_worst r⟩
    case atLeast | atMost =>
      rw [length_recordBytes, recordOffset_worst, recordOffset_injected, recordOffset_firstError]
      split_ifs <;> omega
    · rw [listed, BitVec.toNat_ofNat, Nat.mod_eq_of_lt (by omega)]
    · rw [lane, laneCode_toNat]
    · rw [cause]
      cases r.cause <;> rfl
    · rw [unit]
      cases r.unit <;> rfl
    · rw [flags]
      exact recordFlags_getLsbD r
  case read =>
    rintro p n s ring c h rfl rfl
    refine ⟨exec_resultRead_empty h n, fun k hk sound named => ?_⟩
    rw [exec_resultRead_record h n sound hk (named.trans (sound.2 k hk).symm)]
    refine congrArg Host.Outcome.next (modPort_congr ?_)
    rw [replied_port, if_pos rfl]
    rfl
  case clear =>
    intro p n s h
    rw [exec_resultClear h, clearRing, replied_lane]
    rfl

/-! ### PORT_RESET (R158, R177) -/

/-- Settles O10: the ports' parts of the reset are `resetPort`, the table's `releaseAll`. -/
theorem portResetClearsOwnPort : Obligations.PortResetClearsOwnPort := by
  intro p s h
  have cursors : ∀ n : Lane, oldestCursor (s.lane n).ring =
      { next := match (s.lane n).ring.records.head? with
          | some r => r.sequence
          | none => (s.lane n).ring.nextSeq
        skipped := 0 } := fun n => by
    unfold oldestCursor
    cases (s.lane n).ring.records.head? <;> rfl
  rw [exec, execPortReset, frameEnds_taken h]
  simp only [if_true, Port.frame_port, State.modPort, releaseAll_port, State.shifted_port, resetPort,
    State.shifted_lane, cursors]
  cases p <;> rfl

end Sys2Proof.Machine
end

section
/-!
PROOF. The frame of a port command: its bytes and the command they carry (R160, R162 check 1, R179), what it shifts out
(R161), the select activities that are no frame (R178), and the refusals that come before any command's own rule: FRAME,
RANGE and RESERVED (R162, R163, R168).
-/

namespace Sys2Proof.Machine

/-! ### Bytes and commands (R160, R162 check 1, Table 11-2) -/

/-- The code that a frame spells is the code of the command it carries. -/
theorem frameBytes_decodeFrame_cons (f : Select) (code : Byte) (args : List Byte) :
    frameBytes (decodeFrame f (code :: args)) = some (f, code :: args) := by
  have spelled : ∀ k : Byte, code.toNat = k.toNat → some (f, k :: args) = some (f, code :: args) := fun k hk => by
    rw [BitVec.eq_of_toNat_eq hk]
  rw [decodeFrame]
  split
  case h_45 => rfl -- no row of Table 11-2
  all_goals exact spelled _ ‹_›

/-- A frame is an UNKNOWN_CODE_FRAME exactly when its code names no command. -/
theorem decodeFrame_cons_eq_unknown {f : Select} {code : Byte} {args : List Byte} :
    decodeFrame f (code :: args) = .unknownCodeFrame f code args ↔ codeNamesCommand code = false := by
  rw [decodeFrame, codeNamesCommand]
  split
  case h_45 => simp_all -- no row of Table 11-2
  all_goals simp [*]

theorem decodeFrame_cons_wellFormed (f : Select) (code : Byte) (args : List Byte) :
    (decodeFrame f (code :: args)).WellFormed = true := by
  have bytes := frameBytes_decodeFrame_cons f code args
  generalize hc : decodeFrame f (code :: args) = c at bytes ⊢
  cases c with
  | unknownCodeFrame g k as =>
    cases bytes
    simpa [Instr.WellFormed] using decodeFrame_cons_eq_unknown.mp hc
  | _ => rfl

/-- Settles O2: a command is read back from its code, and a code outside Table 11-2 from the frame itself. -/
theorem frameBytesAndCommandsAgree : Obligations.FrameBytesAndCommandsAgree := by
  refine ⟨fun c f bs hw hc => ?_, fun f bs => ?_⟩
  · cases c with
    | unknownCodeFrame g code args =>
      cases hc
      exact decodeFrame_cons_eq_unknown.mpr (by simpa [Instr.WellFormed] using hw)
    | _ => cases hc <;> rfl
  · cases bs with
    | nil => exact ⟨rfl, rfl⟩
    | cons code args => exact ⟨frameBytes_decodeFrame_cons .., decodeFrame_cons_wellFormed ..⟩

/-! ### Frames taken and ignored (R160, R161, R163, R178) -/

theorem length_shiftOut (r : Response) (len : Nat) : (shiftOut r len).length = len := by
  simp [shiftOut]

/-- A byte shifted out is that of the response, and 0 past its end (R161). -/
theorem shiftOut_getElem? (r : Response) {len k : Nat} (hk : k < len) :
    (shiftOut r len)[k]? = some ((responseBytes r).getD k 0) := by
  rw [shiftOut, List.getElem?_take_of_lt hk, List.getD_eq_getElem?_getD]
  rcases lt_or_ge k (responseBytes r).length with hin | hout
  · rw [List.getElem?_append_left hin, List.getElem?_eq_getElem hin, Option.getD_some]
  · rw [List.getElem?_append_right hout, List.getElem?_eq_none hout, List.getElem?_replicate_of_lt (by omega)]
    rfl

/-- A code that names no command (R162 check 1, R163). -/
theorem exec_unknownCodeFrame {s : State} {p : Port} (h : FramesTaken s p) {code : Byte} (args : List Byte)
    (unnamed : codeNamesCommand code = false) : exec (.unknownCodeFrame p.frame code args) s =
      .next (replied p (1 + args.length) { status := .unknown, code := code, fields := [] } s) := by
  rw [exec, execUnknownCodeFrame, if_neg (by simp [unnamed])]
  exact portCommand_refused h (by decide) rfl

/-- Settles O3: a frame that is taken finds its port's earlier commands done; other select activity is ignored. -/
theorem framesAreTakenAndAnswered : Obligations.FramesAreTakenAndAnswered := by
  refine ⟨⟨fun r len => ⟨length_shiftOut r len, fun _ => shiftOut_getElem? r⟩, fun p args s h => ?_, fun p s h => ?_,
    fun p code args s unnamed h => exec_unknownCodeFrame h args unnamed⟩, fun c f bs s hw hc ignored => ?_⟩
  · rw [exec, execNop, frameEnds_taken h]
    rfl
  · rw [exec, execEmptyFrame, frameEnds_taken h]
  · obtain ⟨carried, hcarried⟩ := exec_frameEnds hw hc
    rw [hcarried, frameEnds_ignored ignored]

/-! ### FRAME (R162 check 2, R163) -/

section
variable {s : State} {p : Port} (h : FramesTaken s p) {code : Byte} {args : List Byte}
include h

theorem portCommand_wrongLength {body : State → Answer}
    (hb : body (s.shifted p (1 + args.length)) = .refuse .frame) :
    portCommand p.frame code args body s = .next (frameRefused p (1 + args.length) code s) := by
  rw [portCommand_taken h, hb]
  exact settle_frame ..

theorem bareCommand_wrongLength {body : State → Answer} (hlen : (args.length == 0) = false) :
    bareCommand p.frame code args body s = .next (frameRefused p (1 + args.length) code s) :=
  portCommand_wrongLength h (if_neg (by simpa using hlen))

theorem laneCommand_wrongLength {needs : Bool} {body : Lane → State → Answer} (hlen : (args.length == 1) = false) :
    laneCommand p.frame code needs args body s = .next (frameRefused p (1 + args.length) code s) := by
  refine portCommand_wrongLength h ?_
  split
  · cases hlen
  · rfl

theorem execPortReset_wrongLength (hlen : (args.length == 0) = false) :
    execPortReset p.frame args s = .next (frameRefused p (1 + args.length) 0x03 s) := by
  rw [execPortReset, frameEnds_taken h]
  exact (if_neg (by simpa using hlen)).trans (settle_frame ..)

end

/-! ### Commands that name a lane (R162, R168, Tables 10-2 and 11-2) -/

/-- A command whose frame holds its code and a lane number alone. -/
structure OneLane (c : Instr) (f : Select) (code : Byte) (args : List Byte) : Prop where
  fits : frameLengthFits c = (args.length == 1)
  inRange : argumentsInRange c = true
  runs : ∃ body, ∀ s, exec c s = laneCommand f code (needsLane c) args body s

/-- A command that names a lane has no other argument, or is one of the five that set a record of the lane. -/
theorem namesLane_cases {c : Instr} {f : Select} {code : Byte} {args : List Byte} (names : namesLane c = true)
    (hc : frameBytes c = some (f, code :: args)) :
    OneLane c f code args ∨ c = .planSet f args ∨ c = .injectSet f args ∨ c = .routeSet f args ∨
      c = .checkConfig f args ∨ c = .gateConfig f args := by
  cases c with
  | planSet | injectSet | routeSet | checkConfig | gateConfig =>
    cases hc
    simp
  | planCheck | planRead | laneStart | laneTrigger | laneHalt | laneStatus | injectRead | injectTotalsClear | sigClear
  | sigRead | checkStart | checkStop | checkStatus | totalsRead | totalsClear | gateArm | gateTrigger | gateStop
  | gateStatus | resultRead | resultPeek | resultClear =>
    cases hc
    refine .inl ⟨rfl, rfl, ?_⟩
    simp only [exec, execPlanCheck, execPlanRead, execLaneStart, execLaneTrigger, execLaneHalt, execLaneStatus,
      execInjectRead, execInjectTotalsClear, execSigClear, execSigRead, execCheckStart, execCheckStop, execCheckStatus,
      execTotalsRead, execTotalsClear, execGateArm, execGateTrigger, execGateStop, execGateStatus, execResultRead,
      execResultPeek, execResultClear]
    exact ⟨_, fun s => rfl⟩
  | _ => cases names

/-- A command that needs a lane names it. -/
theorem namesLane_of_needsLane {c : Instr} (h : needsLane c = true) : namesLane c = true := by
  cases c with
  | planSet | planCheck | laneStart | laneTrigger | laneHalt | injectSet | injectTotalsClear | sigClear | routeSet
  | checkConfig | checkStart | checkStop | totalsClear | gateConfig | gateArm | gateTrigger | gateStop | resultClear =>
    rfl
  | _ => cases h

/-- Settles O4: every command looks at the length of its frame first. -/
theorem wrongLengthAnswersFrame : Obligations.WrongLengthAnswersFrame := by
  intro c p code args s hc h hlen
  cases c with
  | nop | unknownCodeFrame => cases hlen
  | identify | reservationRead | eventRead | segRead =>
    cases hc
    simp only [exec, execIdentify, execReservationRead, execEventRead, execSegRead]
    exact bareCommand_wrongLength h hlen
  | portReset =>
    cases hc
    exact execPortReset_wrongLength h hlen
  | reserve | release | holdoffSet | segSelect | segClear | wordRead | routeSet | checkConfig =>
    cases hc
    simp only [exec, execReserve, execRelease, execHoldoffSet, execSegSelect, execSegClear, execWordRead, execRouteSet,
      execCheckConfig]
    refine portCommand_wrongLength h ?_
    split
    · cases hlen
    · rfl
  | wordWrite =>
    cases hc
    rw [exec, execWordWrite]
    refine portCommand_wrongLength h ?_
    cases args with
    | nil => rfl
    | cons n data => exact if_neg (by simpa [frameLengthFits] using hlen)
  | eventClear | eventEnable | segWrite | wordSelect | planSet | injectSet | gateConfig =>
    cases hc
    simp only [exec, execEventClear, execEventEnable, execSegWrite, execWordSelect, execPlanSet, execInjectSet,
      execGateConfig]
    exact portCommand_wrongLength h (if_neg (by simpa [frameLengthFits] using hlen))
  | emptyFrame | deviceReset | resetNReturnsHigh | tick => cases hc
  | trigEdge | gateEdge | transmitSlot | pauseEnd | wordLimitReached | receiveWord | sliceClose | intervalExpiry
  | chainStart | holdoffExpiry => cases hc
  | _ =>
    rcases namesLane_cases rfl hc with lane | hx | hx | hx | hx | hx
    · obtain ⟨body, runs⟩ := lane.runs
      rw [runs]
      exact laneCommand_wrongLength h (lane.fits.symm.trans hlen)
    all_goals cases hx

/-! ### RANGE and RESERVED (R162 checks 3 and 4, R163, R168) -/

/-- A command of lane byte `b` that looks at its arguments first and at the lane's holder next. -/
structure ChecksInOrder (c : Instr) (f : Select) (code b : Byte) (rest : List Byte) (answer : State → Answer) :
    Prop where
  runs : ∀ s, exec c s = portCommand f code (b :: rest) answer s
  range : 4 ≤ b.toNat ∨ argumentsInRange c = false → ∀ t, answer t = .refuse .range
  reserved : ∀ n, b = laneCode n → argumentsInRange c = true → needsLane c = true →
    ∀ t, heldByOther t f.port (laneResource n) = true → answer t = .refuse .reserved

section
variable {f : Select} {code b : Byte} {rest : List Byte}

theorem OneLane.checks {c : Instr} (lane : OneLane c f code (b :: rest)) (hlen : frameLengthFits c = true) :
    ∃ answer, ChecksInOrder c f code b rest answer := by
  obtain rfl : rest = [] := by simpa [lane.fits] using hlen
  obtain ⟨body, runs⟩ := lane.runs
  refine ⟨_, runs, ?range, ?reserved⟩
  case range =>
    rintro (hb | hargs) t
    · simp only [laneOfByte_eq_none hb]
    · exact absurd lane.inRange (by simp [hargs])
  case reserved =>
    rintro n rfl - needs t held
    simp [needs, held]

theorem planSet_checks (hlen : frameLengthFits (.planSet f (b :: rest)) = true) :
    ∃ answer, ChecksInOrder (.planSet f (b :: rest)) f 0x20 b rest answer := by
  have hrest : rest.length = 22 := by simpa [frameLengthFits] using hlen
  refine ⟨_, fun s => by rw [exec, execPlanSet], fun hr t => ?range, ?reserved⟩
  case range =>
    rw [if_pos (by simp [hrest])]
    rcases hr with hb | hargs
    · simp [byteAt, laneOfByte_eq_none hb]
    · have plan (n : Lane) : planOfBytes (t.lane n).plan rest = none := by
        rw [← Option.not_isSome_iff_eq_none, planOfBytes_isSome _ (Reset.plan 0)]
        exact Bool.eq_false_iff.mp hargs
      cases hn : laneOfByte b <;> simp [byteAt, hn, plan]
  case reserved =>
    rintro n rfl hargs - t held
    obtain ⟨pl, hpl⟩ := Option.isSome_iff_exists.mp
      ((planOfBytes_isSome (t.lane n).plan (Reset.plan 0) rest).trans hargs)
    simp [byteAt, hrest, hpl, held]

theorem injectSet_checks (hlen : frameLengthFits (.injectSet f (b :: rest)) = true) :
    ∃ answer, ChecksInOrder (.injectSet f (b :: rest)) f 0x30 b rest answer := by
  have hframe : (b :: rest).length = 7 := by simpa [frameLengthFits] using hlen
  refine ⟨_, fun s => by rw [exec, execInjectSet], fun hr t => ?range, ?reserved⟩
  case range =>
    rw [if_pos hframe]
    rcases hr with hb | hargs
    · simp [byteAt, laneOfByte_eq_none hb]
    · rw [Option.not_isSome_iff_eq_none.mp (Bool.eq_false_iff.mp hargs)]
      cases laneOfByte (byteAt (b :: rest) 0) <;> rfl
  case reserved =>
    rintro n rfl hargs - t held
    obtain ⟨x, hx⟩ := Option.isSome_iff_exists.mp hargs
    have hn : laneOfByte (byteAt (laneCode n :: rest) 0) = some n := laneOfByte_laneCode n
    rw [if_pos hframe, hn, hx]
    exact if_pos held

theorem routeSet_checks (hlen : frameLengthFits (.routeSet f (b :: rest)) = true) :
    ∃ answer, ChecksInOrder (.routeSet f (b :: rest)) f 0x38 b rest answer := by
  have hrest : rest.length = 3 := by simpa [frameLengthFits] using hlen
  obtain ⟨kind, m, g, rfl⟩ := List.length_eq_three.mp hrest
  refine ⟨_, fun s => by rw [exec, execRouteSet], fun hr t => ?range, ?reserved⟩
  case range =>
    rcases hr with hb | hargs
    · simp [laneOfByte_eq_none hb]
    · have hroute : routeOfBytes kind m g = none := Option.not_isSome_iff_eq_none.mp (Bool.eq_false_iff.mp hargs)
      simp [hroute]
  case reserved =>
    rintro n rfl hargs - t held
    obtain ⟨r, hr⟩ : ∃ r, routeOfBytes kind m g = some r := Option.isSome_iff_exists.mp hargs
    simp [hr, held]

theorem checkConfig_checks (hlen : frameLengthFits (.checkConfig f (b :: rest)) = true) :
    ∃ answer, ChecksInOrder (.checkConfig f (b :: rest)) f 0x39 b rest answer := by
  have hrest : rest.length = 4 := by simpa [frameLengthFits] using hlen
  obtain ⟨plan, v, th, mode, rfl⟩ := List.length_eq_four.mp hrest
  refine ⟨_, fun s => by rw [exec, execCheckConfig], fun hr t => ?range, ?reserved⟩
  case range =>
    rcases hr with hb | hargs
    · simp [laneOfByte_eq_none hb]
    · have hcfg : checkConfigOfBytes plan v th mode = none :=
        Option.not_isSome_iff_eq_none.mp (Bool.eq_false_iff.mp hargs)
      simp [hcfg]
  case reserved =>
    rintro n rfl hargs - t held
    obtain ⟨cfg, hcfg⟩ : ∃ cfg, checkConfigOfBytes plan v th mode = some cfg := Option.isSome_iff_exists.mp hargs
    simp [hcfg, held]

theorem gateConfig_checks (hlen : frameLengthFits (.gateConfig f (b :: rest)) = true) :
    ∃ answer, ChecksInOrder (.gateConfig f (b :: rest)) f 0x48 b rest answer := by
  have hrest : rest.length = 15 := by simpa [frameLengthFits] using hlen
  have inRange : argumentsInRange (.gateConfig f (b :: rest)) =
      match laneOfByte b with
      | some n => (timerConfigOfBytes n rest).isSome
      | none => false := rfl
  refine ⟨_, fun s => by rw [exec, execGateConfig], fun hr t => ?range, ?reserved⟩
  case range =>
    rw [if_pos (by simp [hrest])]
    cases hn : laneOfByte b with
    | none => simp [byteAt, hn]
    | some n =>
      rw [inRange, hn] at hr
      have hcfg : (timerConfigOfBytes n rest).isSome = false :=
        hr.resolve_left fun hb => by simp [laneOfByte_eq_none hb] at hn
      simp [byteAt, hn, Option.not_isSome_iff_eq_none.mp (Bool.eq_false_iff.mp hcfg)]
  case reserved =>
    rintro n rfl hargs - t held
    rw [inRange, laneOfByte_laneCode] at hargs
    obtain ⟨cfg, hcfg⟩ := Option.isSome_iff_exists.mp hargs
    simp [byteAt, hrest, hcfg, held]

/-- Every command that names a lane checks in the order of R162. -/
theorem namesLane_checks {c : Instr} (names : namesLane c = true) (hc : frameBytes c = some (f, code :: b :: rest))
    (hlen : frameLengthFits c = true) : ∃ answer, ChecksInOrder c f code b rest answer := by
  rcases namesLane_cases names hc with lane | rfl | rfl | rfl | rfl | rfl
  · exact lane.checks hlen
  all_goals cases hc
  · exact planSet_checks hlen
  · exact injectSet_checks hlen
  · exact routeSet_checks hlen
  · exact checkConfig_checks hlen
  · exact gateConfig_checks hlen

end

/-- A check that fails refuses the command of a frame that is taken, and changes the response alone. -/
theorem ChecksInOrder.refused {c : Instr} {p : Port} {code b : Byte} {rest : List Byte} {answer : State → Answer}
    (checks : ChecksInOrder c p.frame code b rest answer) {s : State} (h : FramesTaken s p) {st : Status}
    (hst : st ≠ .frame) (ha : ∀ len, answer (s.shifted p len) = .refuse st) :
    exec c s = .next (replied p (2 + rest.length) { status := st, code := code, fields := [] } s) := by
  have hlen : 2 + rest.length = 1 + (b :: rest).length := by rw [List.length_cons]; omega
  rw [checks.runs, hlen]
  exact portCommand_refused h hst (ha _)

/-- Settles O5: RANGE is the first check of a frame of its command's length, whatever the state. -/
theorem argumentOutOfRangeAnswersRange : Obligations.ArgumentOutOfRangeAnswersRange := by
  intro c p code b rest s names hc hlen h hr
  obtain ⟨answer, checks⟩ := namesLane_checks names hc hlen
  exact checks.refused h (by decide) fun len => checks.range hr _

/-- Settles O7: RESERVED is the next check, of the holder of the lane named. -/
theorem heldLaneAnswersReserved : Obligations.HeldLaneAnswersReserved := by
  intro c p code n rest s needs hc hlen hargs h held
  obtain ⟨answer, checks⟩ := namesLane_checks (namesLane_of_needsLane needs) hc hlen
  refine checks.refused h (by decide) fun len => checks.reserved n rfl hargs needs _ ?_
  rw [Port.frame_port, heldByOther_shifted]
  exact heldByOther_eq_true.mpr held

end Sys2Proof.Machine
end

section
/-!
PROOF. The port commands that read the part's identity, take and free reservations, and read and set the sender's event
view (R164, R166, R167, R171 to R175).
-/

namespace Sys2Proof.Machine

/-! ### Reads without arguments (R164, R167, R175) -/

section
variable {s : State} {p : Port} (h : FramesTaken s p)
include h

/-- A command without arguments that answers over the state it finds. -/
theorem bareCommand_answered {code : Byte} {body : State → Answer} {fields : List Byte}
    (hb : body (s.shifted p 1) = .done .ok fields (s.shifted p 1)) :
    bareCommand p.frame code [] body s = .next (replied p 1 { status := .ok, code := code, fields := fields } s) := by
  rw [bareCommand_taken h, hb, settle_done, shifted_respond]

theorem exec_identify : exec (.identify p.frame []) s =
    .next (replied p 1
      { status := .ok, code := 0x02,
        fields := be 2 4410 ++ [1, 4, 64] ++ be 2 4096 ++ [portCode p] } s) := by
  rw [exec, execIdentify]
  exact bareCommand_answered h rfl

theorem exec_eventRead : exec (.eventRead p.frame []) s =
    .next (replied p 1 { status := .ok, code := 0x08, fields := eventReadFields (s.port p).view } s) := by
  rw [exec, execEventRead]
  refine bareCommand_answered h ?_
  rw [Port.frame_port, State.shifted_port, if_pos rfl]

end

/-- The alert line is asserted by a flag that is pending and enabled, outside the hold-off (R171). -/
theorem alertAsserted_iff {v : EventView} : alertAsserted v = true ↔
    (∃ k, v.pending.getLsbD k = true ∧ v.enable.getLsbD k = true) ∧ v.holdoff.running = false := by
  have enabled : v.pending &&& v.enable ≠ 0 ↔ ∃ k, v.pending.getLsbD k = true ∧ v.enable.getLsbD k = true := by
    rw [not_iff_comm, not_exists]
    refine ⟨fun none => BitVec.eq_of_getLsbD_eq fun k _ => ?_, fun zero k hk => ?_⟩
    · rw [BitVec.getLsbD_and, BitVec.ofNat_eq_ofNat, BitVec.getLsbD_zero]
      exact Bool.eq_false_iff.mpr fun hk => none k (Bool.and_eq_true_iff.mp hk)
    · have hbit := congrArg (·.getLsbD k) zero
      simp [hk.1, hk.2] at hbit
  rw [alertAsserted, Bool.and_eq_true, bne_iff_ne, enabled, Bool.not_eq_true']

/-- Settles O9: both answer over the state they find, and the line's level is `alertAsserted`. -/
theorem identityAndEventViewAreRead : Obligations.IdentityAndEventViewAreRead :=
  ⟨fun _ _ h => exec_identify h, fun _ _ h => ⟨exec_eventRead h, alertAsserted_iff⟩⟩

/-! ### Reservations (R166, R167) -/

section
variable {s : State} {p : Port} (h : FramesTaken s p) (r : Fin 20)

theorem resourceOfByte_eq_none {b : Byte} (hb : 19 < b.toNat) : resourceOfByte b = none :=
  dif_neg (by omega)

theorem setHolder_respond (len : Nat) (resp : Response) (holder : Option Port) :
    ((s.shifted p len).setHolder r holder).respond p resp = (replied p len resp s).setHolder r holder := by
  cases p <;> rfl

include h

theorem exec_reserve (free : s.holder r ≠ some (otherPort p)) : exec (.reserve p.frame [BitVec.ofNat 8 r.val]) s =
    .next ((replied p 2
      { status := .ok, code := 0x04, fields := [BitVec.ofNat 8 r.val, portCode p] } s).setHolder r (some p)) := by
  rw [exec, execReserve, portCommand_taken h]
  simp only [resourceOfByte_ofNat, Port.frame_port, heldByOther_shifted, heldByOther_eq_false.mpr free]
  exact congrArg Host.Outcome.next (setHolder_respond r ..)

theorem exec_reserve_reserved (held : s.holder r = some (otherPort p)) :
    exec (.reserve p.frame [BitVec.ofNat 8 r.val]) s =
      .next (replied p 2 { status := .reserved, code := 0x04, fields := [] } s) := by
  rw [exec, execReserve]
  refine portCommand_refused h (st := .reserved) (args := [BitVec.ofNat 8 r.val]) (by decide) ?_
  simp only [resourceOfByte_ofNat, Port.frame_port, heldByOther_shifted, heldByOther_eq_true.mpr held, if_true]

theorem exec_release (held : s.holder r = some p) : exec (.release p.frame [BitVec.ofNat 8 r.val]) s =
    .next ((replied p 2
      { status := .ok, code := 0x05, fields := [BitVec.ofNat 8 r.val] } s).setHolder r none) := by
  rw [exec, execRelease, portCommand_taken h]
  simp only [resourceOfByte_ofNat, Port.frame_port, State.shifted_holder, held, if_true]
  exact congrArg Host.Outcome.next (setHolder_respond r ..)

theorem exec_release_state (free : s.holder r ≠ some p) : exec (.release p.frame [BitVec.ofNat 8 r.val]) s =
    .next (replied p 2 { status := .state, code := 0x05, fields := [] } s) := by
  rw [exec, execRelease]
  refine portCommand_refused h (st := .state) (args := [BitVec.ofNat 8 r.val]) (by decide) ?_
  simp only [resourceOfByte_ofNat, Port.frame_port, State.shifted_holder, free, if_false]

/-- An identifier past the table (R166, R167). -/
theorem exec_reserve_release_range {b : Byte} (hb : 19 < b.toNat) :
    exec (.reserve p.frame [b]) s = .next (replied p 2 { status := .range, code := 0x04, fields := [] } s) ∧
    exec (.release p.frame [b]) s = .next (replied p 2 { status := .range, code := 0x05, fields := [] } s) := by
  constructor
  · rw [exec, execReserve]
    exact portCommand_refused h (st := .range) (args := [b]) (by decide) (by simp only [resourceOfByte_eq_none hb])
  · rw [exec, execRelease]
    exact portCommand_refused h (st := .range) (args := [b]) (by decide) (by simp only [resourceOfByte_eq_none hb])

theorem exec_reservationRead : exec (.reservationRead p.frame []) s =
    .next (replied p 1
      { status := .ok, code := 0x06, fields := (List.finRange 20).map fun r => holderCode (s.holder r) } s) := by
  have table : s.holders.toList.map holderCode = (List.finRange 20).map fun r => holderCode (s.holder r) :=
    List.ext_getElem (by simp) fun i _ _ => by simp [State.holder]
  rw [exec, execReservationRead]
  exact bareCommand_answered h (by rw [State.shifted_holders, table])

end

/-- Settles O11: the three commands in the cases of their rules. -/
theorem reservationsAreTakenAndFreed : Obligations.ReservationsAreTakenAndFreed :=
  ⟨fun _ _ h => ⟨exec_reserve h, exec_reserve_reserved h, fun _ hb => (exec_reserve_release_range h hb).1⟩,
    fun _ _ h => ⟨exec_release h, exec_release_state h, fun _ hb => (exec_reserve_release_range h hb).2,
      exec_reservationRead h⟩⟩

/-! ### The event view (R172 to R174) -/

/-- An event set is read back from its four bytes (R182). -/
theorem eventSetOfBytes_be (e : EventSet) : eventSetOfBytes (be 4 e.toNat) = some e := by
  have he := e.isLt
  rw [eventSetOfBytes, ofBe_be, Nat.mod_eq_of_lt (by omega), if_pos he, BitVec.ofNat_toNat, BitVec.setWidth_eq]

theorem eventSetOfBytes_eq_none {args : List Byte} (h : 2 ^ 26 ≤ ofBe args) : eventSetOfBytes args = none :=
  if_neg (Nat.not_lt.mpr h)

section
variable {s : State} {p : Port} (h : FramesTaken s p)
include h

theorem exec_eventClear (e : EventSet) : exec (.eventClear p.frame (be 4 e.toNat)) s =
    .next ((replied p 5
      { status := .ok, code := 0x09, fields := be 4 ((s.port p).view.pending &&& ~~~e).toNat } s).modPort p fun v =>
        { v with view := clearEvents v.view e }) := by
  rw [exec, execEventClear, portCommand_taken h]
  simp only [length_be, if_true, eventSetOfBytes_be, settle_done, Port.frame_port, State.shifted_port]
  exact congrArg Host.Outcome.next (shifted_modPort_respond s p 5 _ _ fun _ => rfl)

theorem exec_eventEnable (e : EventSet) : exec (.eventEnable p.frame (be 4 e.toNat)) s =
    .next ((replied p 5 { status := .ok, code := 0x0A, fields := be 4 e.toNat } s).modPort p fun v =>
      { v with view := { v.view with enable := e } }) := by
  rw [exec, execEventEnable, portCommand_taken h]
  simp only [length_be, if_true, eventSetOfBytes_be, settle_done, Port.frame_port]
  exact congrArg Host.Outcome.next (shifted_modPort_respond s p 5 _ _ fun _ => rfl)

theorem exec_holdoffSet (b : Byte) : exec (.holdoffSet p.frame [b]) s =
    .next ((replied p 2 { status := .ok, code := 0x0B, fields := [b] } s).modPort p fun v =>
      { v with view := { v.view with length := b } }) := by
  rw [exec, execHoldoffSet, portCommand_taken h]
  exact congrArg Host.Outcome.next (shifted_modPort_respond s p 2 _ _ fun _ => rfl)

/-- Bits 26 to 31 of an event set stand for no event (R182). -/
theorem exec_eventSet_range {args : List Byte} (hlen : args.length = 4) (hargs : 2 ^ 26 ≤ ofBe args) :
    exec (.eventClear p.frame args) s = .next (replied p 5 { status := .range, code := 0x09, fields := [] } s) ∧
    exec (.eventEnable p.frame args) s = .next (replied p 5 { status := .range, code := 0x0A, fields := [] } s) := by
  have hframe : 5 = 1 + args.length := by omega
  rw [hframe]
  constructor
  · rw [exec, execEventClear]
    exact portCommand_refused h (by decide) (by rw [if_pos hlen, eventSetOfBytes_eq_none hargs])
  · rw [exec, execEventEnable]
    exact portCommand_refused h (by decide) (by rw [if_pos hlen, eventSetOfBytes_eq_none hargs])

end

/-- The line after EVENT_CLEAR: released while the hold-off timer that it starts runs (R172). -/
theorem alertAsserted_clearEvents (v : EventView) (e : EventSet) : alertAsserted (clearEvents v e) =
    (v.pending &&& ~~~e &&& v.enable != 0 && v.length == 0) := by
  by_cases hl : v.length = 0
  · rw [alertAsserted, clearEvents, startHoldoff, if_pos hl, beq_iff_eq.mpr hl]
    rfl
  · rw [alertAsserted, clearEvents, startHoldoff, if_neg hl, beq_eq_false_iff_ne.mpr hl]
    rfl

/-- Settles O12: what each command sets is its own, and the line follows from the view that EVENT_CLEAR leaves. -/
theorem eventCommandsSetTheView : Obligations.EventCommandsSetTheView := by
  refine ⟨fun p s h => ⟨fun e => ?_, fun args hlen hargs => (exec_eventSet_range h hlen hargs).1⟩, fun p s h =>
    ⟨exec_eventEnable h, fun args hlen hargs => (exec_eventSet_range h hlen hargs).2, exec_holdoffSet h⟩⟩
  have line : ∀ r : Response,
      ((replied p 5 r s).modPort p fun v => { v with view := clearEvents v.view e }).alertLine p =
        ((s.port p).view.pending &&& ~~~e &&& (s.port p).view.enable != 0 && (s.port p).view.length == 0) := fun r => by
    rw [State.alertLine, State.modPort_port, if_pos rfl, alertAsserted_clearEvents, replied_port, if_pos rfl]
  refine ⟨_, exec_eventClear h e, rfl, fun running => ?_, fun stopped => ?_⟩
  · rw [line, beq_eq_false_iff_ne.mpr running, Bool.and_false]
  · rw [line, beq_iff_eq.mpr stopped, Bool.and_true]

end Sys2Proof.Machine
end

section
/-!
PROOF. Device reset (R178): the values that it leaves, and the invariants that they meet.
-/

namespace Sys2Proof.Machine

/-! ### What holds right after reset -/

theorem reset_lane (n : Lane) : State.reset.lane n = Reset.lane n .low .low := by
  simp [State.reset, State.lane]

/-- The part just out of reset is one that a device reset has left (R178). -/
theorem deviceResetState_reset : deviceResetState State.reset .released = State.reset :=
  State.ext_parts (fun _ => rfl) rfl (fun n => by rw [deviceResetState_lane, reset_lane]; rfl)
    (fun p => by cases p <;> rfl) (fun _ => rfl) rfl rfl rfl

theorem reset_seg (i : Fin 64) : State.reset.seg i = { record := none, useSet := 0 } :=
  deviceResetState_reset ▸ deviceResetState_seg State.reset .released i

theorem reset_holder (r : Fin 20) : State.reset.holder r = none := by
  simp [State.reset, State.holder]

theorem reset_port (p : Port) : State.reset.port p = Reset.port := by
  cases p <;> rfl

/-- The reset values of R116 to R118 leave an idle timer. -/
theorem resetTimer_sound : TimerSound Reset.timer :=
  ⟨fun _ => rfl, rfl, Nat.zero_le _, .nil⟩

theorem resetTimer_settled : TimerSettled Reset.timer :=
  ⟨by decide, by decide, fun run => by cases run⟩

/-- A generator that has not run leaves nothing due (R38). -/
theorem resetGenerator_settled (pl : Plan) : RunSettled pl Reset.generator :=
  ⟨fun pausing => (by cases pausing), fun run => by cases run⟩

theorem unavailableNow_resetLane (n : Lane) (trig gate : Level) :
    unavailableNow (Reset.lane n trig gate) = false := rfl

/-- Settles O49: each invariant speaks of parts that stand at their reset values. -/
theorem resetMeetsEveryInvariant : Obligations.ResetMeetsEveryInvariant := by
  have timer (n : Lane) : (State.reset.lane n).timer = Reset.timer := by rw [reset_lane]; rfl
  have gen (n : Lane) : (State.reset.lane n).gen = Reset.generator := by rw [reset_lane]; rfl
  have checker (n : Lane) : (State.reset.lane n).checker = Reset.checker n := by rw [reset_lane]; rfl
  refine ⟨reset_store_wf, storedInRange_iff.mpr ⟨fun i sg hi => ?_, fun n => reset_lane n ▸ resetLane_inRange ..⟩,
    fun n pends => ?_, fun n => checker n ▸ resetChecker_sound n, fun n => timer n ▸ resetTimer_sound, fun n now => ?_,
    fun n => reset_lane n ▸ .zeroed rfl rfl, deviceResetState_reset ▸ ringsSound_deviceResetState _ _,
    walkersSound_iff.mpr (deviceResetState_reset ▸ .deviceReset ..), settled_iff.mpr ⟨fun n => ?_, fun p => ?_⟩,
    offersSound_iff.mpr fun n => .of_none (timer n ▸ rfl)⟩
  · rw [State.record, reset_seg] at hi
    cases hi
  · rw [gen] at pends
    cases pends
  · rw [reset_lane, unavailableNow_resetLane] at now
    cases now
  · rw [timer, gen]
    exact ⟨resetTimer_settled, resetGenerator_settled _⟩
  · rw [reset_port]
    intro running
    cases running

/-! ### Device reset (R178) -/

theorem exec_deviceReset (s : State) : exec .deviceReset s = .next { State.reset with
    lanes := Vector.ofFn fun n => { State.reset.lane n with
      trigLine := (s.lane n).trigLine, gateLine := (s.lane n).gateLine }
    resetPhase := .held
    freeCount := s.freeCount
    pending := s.pending } := by
  simp only [reset_lane]
  rfl

/-- A line that is high stays high (log 29). -/
theorem exec_resetNReturnsHigh_released {s : State} (h : s.resetPhase ≠ .held) :
    exec .resetNReturnsHigh s = .next s := by
  have released : s.resetPhase = .released := by
    cases hp : s.resetPhase with
    | held => exact absurd hp h
    | released => rfl
  rw [exec, execResetNReturnsHigh, ← released]

/-- Settles O48: a device reset leaves `State.reset` but for what is not the part's, and that state is read field by
field. -/
theorem deviceResetLeavesResetValues : Obligations.DeviceResetLeavesResetValues := by
  refine ⟨fun s => ⟨exec_deviceReset s, fun _ => rfl, exec_resetNReturnsHigh_released⟩, fun i => ?_, fun _ => rfl,
    reset_holder, fun p => ?_, fun n l hl => ?_⟩
  · rw [State.record, reset_seg]
    exact ⟨rfl, rfl⟩
  · rw [State.alertLine, reset_port]
    exact ⟨rfl, rfl, rfl, rfl, by decide, fun n => Vector.getElem_replicate ..⟩
  · rw [reset_lane] at hl
    subst hl
    and_intros <;> rfl

end Sys2Proof.Machine
end

section
/-!
PROOF. The queue (00_scope 0.5): what a step does on each of its two shapes.
-/

namespace Sys2Proof.Machine

theorem step_of_pending_cons {s : State} {c : Instr} {rest : List Instr} (h : s.pending = c :: rest) :
    step s = exec c { s with pending := rest } := by
  rw [step, h]

/-- On an empty queue the block idles (log 5). -/
theorem step_of_pending_nil {s : State} (h : s.pending = []) : step s = .next s := by
  rw [step, h]

/-- Settles O1: the queue is a front command over a rest, or empty, and `step` answers each by its own equation. -/
theorem stepRunsFrontCommand : Obligations.StepRunsFrontCommand :=
  fun _ => ⟨fun _ _ => step_of_pending_cons, step_of_pending_nil⟩

end Sys2Proof.Machine
end
